-- ==== Sys2Proof/Word.lean ====
section
/-! DEFINITION. The widths the spec fixes (00_scope R6, R8; 20_memory R28, R29): bytes, binary32 patterns, register
indices, 14-bit addresses, and the four bytes of one instruction. -/

namespace Sys2Proof

/-- One byte of an instruction (R38). -/
abbrev Byte := BitVec 8

/-- One lane, one literal: a 32-bit pattern, read as IEEE 754 binary32 where arithmetic or comparison applies (R8, R77). -/
abbrev B32 := BitVec 32

/-- A register number, or the index of an immediate: 7 bits (R6, R42). -/
abbrev RegIdx := BitVec 7

/-- An arena or literal address, or a branch target: 14 bits (R6, R46, R47). -/
abbrev Addr := BitVec 14

/-- One stored instruction: four bytes in this order, the normative instruction format (R29, R38). -/
structure Insn where
  /-- Byte 0. -/
  opcode : Byte
  /-- Byte 1. -/
  dest : Byte
  /-- Byte 2. -/
  src1 : Byte
  /-- Byte 3. -/
  src2 : Byte
deriving DecidableEq, Repr

end Sys2Proof
end

