-- ==== Sys2Proof/Syntax.lean ====
section
/-! DEFINITION. The instructions, one constructor per row of spec/opcode_table.json (30_encoding R49), the loadable program
(00_scope R2, 70 R111) and the seven run-time fault causes (60_exceptions R97). -/

namespace Sys2Proof

/-- A register-class operand (R44): a vector register, or the immediate constant float(n). -/
inductive Operand where
  /-- REGISTER mode. -/
  | reg (i : RegIdx)
  /-- IMMEDIATE mode. -/
  | imm (n : BitVec 7)
deriving DecidableEq, Repr

/-- The space of a memory-class pair (R43, R46). -/
inductive Space where
  | arena
  | literal
deriving DecidableEq, Repr

/-- The instructions: ids 0 to 16 of R49 in order. Bits the decoder ignores (R50) are not part of an instruction; the operand
bytes of a reserved operation, which nothing interprets (R88), are kept as they stand. -/
inductive Instr where
  /-- NOOP, id 0 (R82). -/
  | noop
  /-- END, id 1 (R83). -/
  | endOp
  /-- MOVE, id 2 (R74). -/
  | move (rd : RegIdx) (src : Operand)
  /-- LOAD, id 3 (R75). -/
  | load (rd : RegIdx) (space : Space) (addr : Addr)
  /-- STORE, id 4 (R76): rs is the register stored from. -/
  | store (rs : RegIdx) (addr : Addr)
  /-- CMP, id 5 (R84). -/
  | cmp (src1 src2 : Operand)
  /-- BNE, id 6 (R85). -/
  | bne (target : Addr)
  /-- JMP, id 7 (R86). -/
  | jmp (target : Addr)
  /-- ADD, id 8 (R80). -/
  | add (rd : RegIdx) (src1 src2 : Operand)
  /-- MUL, id 9 (R81). -/
  | mul (rd : RegIdx) (src1 src2 : Operand)
  /-- SHIFT, reserved id 10 (R89). -/
  | shift (dest src1 src2 : Byte)
  /-- INTERP, reserved id 11 (R90). -/
  | interp (dest src1 src2 : Byte)
  /-- SVF, reserved id 12 (R91). -/
  | svf (dest src1 src2 : Byte)
  /-- TEST1, reserved id 13 (R92). -/
  | test1 (dest src1 src2 : Byte)
  /-- TEST2, reserved id 14 (R93). -/
  | test2 (dest src1 src2 : Byte)
  /-- MOVE1, reserved id 15 (R94). -/
  | move1 (dest src1 src2 : Byte)
  /-- LOAD1, reserved id 16 (R95). -/
  | load1 (dest src1 src2 : Byte)
deriving DecidableEq, Repr

/-- The run-time fault causes (R97). Every one has an entry the spec describes (R99), so none of them ends a run of the
model: a step that raises one goes to the state after fault entry. -/
inductive FaultCause where
  | undefinedOpcode
  | illegalOperand
  | storeToLiteral
  | arenaOutOfRange
  | literalOutOfRange
  | pcOutOfRange
  | stepLimit
deriving DecidableEq, Repr

/-- A program as setProgram is given it (R111): instructions, literal pool, and the memory requirements (S, K). The two counts
are unbounded here; validation bounds them (R112). -/
structure Program where
  insns : List Insn
  lit : List B32
  stateVecs : Nat
  scratchVecs : Nat
deriving DecidableEq, Repr

end Sys2Proof
end

