-- ==== Sys2Proof/Decode.lean ====
section
/-! DEFINITION. The instruction codec of 30_encoding: operand bytes (R42), address pairs (R46, R47), the 32-bit word view
(R39), the decoder (R50) and, after it, the encoder (R49, R57). -/

namespace Sys2Proof

/-! ### Operand bytes and pairs -/

/-- encodeOperand of R42: the mode bit over the 7 index bits. -/
def encodeOperand (mode : BitVec 1) (index : BitVec 7) : Byte := mode ++ index

/-- decodeMode of R42: bit 7. -/
def decodeMode (b : Byte) : BitVec 1 := b.extractLsb' 7 1

/-- decodeIndex of R42: bits 6 to 0. -/
def decodeIndex (b : Byte) : BitVec 7 := b.extractLsb' 0 7

/-- packAddress of R46: hi*128 + lo, over 7-bit indices. -/
def packAddress (hi lo : BitVec 7) : Addr := hi ++ lo

/-- unpackAddress of R46: (addr[13:7], addr[6:0]). -/
def unpackAddress (a : Addr) : BitVec 7 × BitVec 7 := (a.extractLsb' 7 7, a.extractLsb' 0 7)

/-- pairAddress of R46, and the target of R47: the packed indices of the two bytes, their mode bits ignored. -/
def pairAddress (src1 src2 : Byte) : Addr := packAddress (decodeIndex src1) (decodeIndex src2)

/-! ### The word view -/

/-- The 32-bit word view of R39, {src2, src1, dest, opcode}: byte 0 in bits 7 to 0. -/
def Insn.word (b : Insn) : BitVec 32 := b.src2 ++ b.src1 ++ b.dest ++ b.opcode

/-- The four bytes of a word in the little-endian order of R39. -/
def Insn.ofWord (w : BitVec 32) : Insn :=
  ⟨w.extractLsb' 0 8, w.extractLsb' 8 8, w.extractLsb' 16 8, w.extractLsb' 24 8⟩

/-! ### The decoder -/

/-- The operation id, opcode[5:0] (R41). -/
def Insn.opId (b : Insn) : BitVec 6 := b.opcode.extractLsb' 0 6

/-- The opcode mode, opcode[7:6] (R41). -/
def Insn.opMode (b : Insn) : BitVec 2 := b.opcode.extractLsb' 6 2

/-- A register-class operand byte (R44). -/
def decodeOperand (x : Byte) : Operand :=
  if decodeMode x = 0 then .reg (decodeIndex x) else .imm (decodeIndex x)

/-- The space named by the mode bit of src1 (R43, R46). -/
def decodeSpace (src1 : Byte) : Space := if decodeMode src1 = 0 then .arena else .literal

/-- A dest byte in the role Rd: IMMEDIATE mode is ILLEGAL_OPERAND (R50). -/
def withRegister (dest : Byte) (k : RegIdx → Except FaultCause Instr) : Except FaultCause Instr :=
  if decodeMode dest ≠ 0 then .error .illegalOperand else k (decodeIndex dest)

/-- The decoder of R50: total on the four bytes, an instruction or the name of a fault cause. The ids 10 to 16, for which R50
answers UNDEFINED_OPCODE, decode here to their own reserved constructors, whose meanings raise that fault (R88 to R95). -/
def decode (b : Insn) : Except FaultCause Instr :=
  if b.opMode ≠ 0 then .error .undefinedOpcode
  else
    match b.opId.toNat with
    | 0 => .ok .noop
    | 1 => .ok .endOp
    | 2 => withRegister b.dest fun rd => .ok (.move rd (decodeOperand b.src1))
    | 3 => withRegister b.dest fun rd => .ok (.load rd (decodeSpace b.src1) (pairAddress b.src1 b.src2))
    | 4 => withRegister b.dest fun rs =>
        match decodeSpace b.src1 with
        | .literal => .error .storeToLiteral
        | .arena => .ok (.store rs (pairAddress b.src1 b.src2))
    | 5 => .ok (.cmp (decodeOperand b.src1) (decodeOperand b.src2))
    | 6 => .ok (.bne (pairAddress b.src1 b.src2))
    | 7 => .ok (.jmp (pairAddress b.src1 b.src2))
    | 8 => withRegister b.dest fun rd => .ok (.add rd (decodeOperand b.src1) (decodeOperand b.src2))
    | 9 => withRegister b.dest fun rd => .ok (.mul rd (decodeOperand b.src1) (decodeOperand b.src2))
    | 10 => .ok (.shift b.dest b.src1 b.src2)
    | 11 => .ok (.interp b.dest b.src1 b.src2)
    | 12 => .ok (.svf b.dest b.src1 b.src2)
    | 13 => .ok (.test1 b.dest b.src1 b.src2)
    | 14 => .ok (.test2 b.dest b.src1 b.src2)
    | 15 => .ok (.move1 b.dest b.src1 b.src2)
    | 16 => .ok (.load1 b.dest b.src1 b.src2)
    | _ => .error .undefinedOpcode

/-- The instruction the decoder reads from a row of spec/opcode_table.json: nbits bits of w, the rest 0, laid out as the four
bytes of R39. -/
def decodeTableWord (nbits w : Nat) : Option Instr :=
  match decode (Insn.ofWord (BitVec.ofNat 32 (w % 2 ^ nbits))) with
  | .ok i => some i
  | .error _ => none

/-! ### The encoder -/

/-- The byte of a register-class operand (R44, R53). -/
def encodeOperandByte : Operand → Byte
  | .reg i => encodeOperand 0 i
  | .imm n => encodeOperand 1 n

/-- The two bytes of an address pair; the mode bit of src1 names the space, the mode bit of src2 is 0 (R46). -/
def encodePair (mode : BitVec 1) (a : Addr) : Byte × Byte :=
  (encodeOperand mode (unpackAddress a).1, encodeOperand 0 (unpackAddress a).2)

/-- The mode bit of a space: ARENA 0, LITERAL 1 (R43). -/
def spaceMode : Space → BitVec 1
  | .arena => 0
  | .literal => 1

/-- The four bytes of an instruction, every unused bit 0 (R49, R57). -/
def encode : Instr → Insn
  | .noop => ⟨0x00, 0, 0, 0⟩
  | .endOp => ⟨0x01, 0, 0, 0⟩
  | .move rd src => ⟨0x02, encodeOperand 0 rd, encodeOperandByte src, 0⟩
  | .load rd space addr =>
      ⟨0x03, encodeOperand 0 rd, (encodePair (spaceMode space) addr).1, (encodePair (spaceMode space) addr).2⟩
  | .store rs addr => ⟨0x04, encodeOperand 0 rs, (encodePair 0 addr).1, (encodePair 0 addr).2⟩
  | .cmp a b => ⟨0x05, 0, encodeOperandByte a, encodeOperandByte b⟩
  | .bne target => ⟨0x06, 0, (encodePair 0 target).1, (encodePair 0 target).2⟩
  | .jmp target => ⟨0x07, 0, (encodePair 0 target).1, (encodePair 0 target).2⟩
  | .add rd a b => ⟨0x08, encodeOperand 0 rd, encodeOperandByte a, encodeOperandByte b⟩
  | .mul rd a b => ⟨0x09, encodeOperand 0 rd, encodeOperandByte a, encodeOperandByte b⟩
  | .shift d a b => ⟨0x0A, d, a, b⟩
  | .interp d a b => ⟨0x0B, d, a, b⟩
  | .svf d a b => ⟨0x0C, d, a, b⟩
  | .test1 d a b => ⟨0x0D, d, a, b⟩
  | .test2 d a b => ⟨0x0E, d, a, b⟩
  | .move1 d a b => ⟨0x0F, d, a, b⟩
  | .load1 d a b => ⟨0x10, d, a, b⟩

end Sys2Proof
end

