-- ==== Sys2Proof/Config.lean ====
section
/-! DEFINITION. The implementation parameters of 00_scope R5 and the free values of 93_implementation_defined U1 and U4.
Each is an opaque constant: Lean can prove nothing of it but what its type says, so a statement holds for every value the
spec allows. A range the spec gives is in the type (a predecessor, a Fin). -/

namespace Sys2Proof.Config

/-- The two lane operations whose NaN results have an open bit pattern (R78). -/
inductive LaneOp where
  | add
  | mul
deriving DecidableEq, Repr

/-- One less than VLEN (R5: any integer ≥ 1; D8). -/
opaque vlenPred : Nat

/-- VLEN, the lanes of every vector (R5). OPEN in the spec: no value is chosen here. -/
def vlen : Nat := vlenPred + 1

/-- One less than MAX_STEPS (R5: any integer ≥ 1; D23). -/
opaque maxStepsPred : Nat

/-- MAX_STEPS, the ceiling on instructions fetched per block (R5, R65). OPEN in the spec. -/
def maxSteps : Nat := maxStepsPred + 1

/-- One less than IMEM_DEPTH (R5: 1 ≤ IMEM_DEPTH ≤ 16384; D30). -/
opaque imemDepthPred : Fin 16384

/-- IMEM_DEPTH, the maximum program length in instructions (R5). OPEN in the spec. -/
def imemDepth : Nat := imemDepthPred.val + 1

/-- ARENA_MAX as a bounded number (R5: 0 ≤ ARENA_MAX ≤ 16384; D27). -/
opaque arenaMaxBound : Fin 16385

/-- ARENA_MAX, the largest arena the platform can allocate, in vectors (R5). OPEN in the spec. -/
def arenaMax : Nat := arenaMaxBound.val

/-- FTZ: whether lane arithmetic flushes subnormals to zero (R5, R78). OPEN in the spec, its default false. -/
opaque ftz : Bool

/-- The sign of the NaN that a lane operation gives on these operands (R5 NAN_RESULT). Free. -/
opaque nanSign : LaneOp → B32 → B32 → Bool

/-- One less than the fraction of that NaN (R5 NAN_RESULT). Free, and nonzero by its type. -/
opaque nanFractionPred : LaneOp → B32 → B32 → Fin 8388607

/-- NAN_RESULT (R5, R78; U4): some NaN, exponent all ones and fraction nonzero, that may depend on the operation and its
operands. Every NaN pattern is of this form. -/
def nanResult (op : LaneOp) (x y : B32) : B32 :=
  BitVec.ofNat 32
    ((if nanSign op x y then 2 ^ 31 else 0) + 255 * 2 ^ 23 + ((nanFractionPred op x y).val + 1))

/-- FADD as the platform configures it (R5, R78; U3): none for the default, some f for another total function of two patterns.
OPEN in the spec: nothing can be proved of the choice. -/
opaque faddChoice : Option (B32 → B32 → B32)

/-- FMUL as the platform configures it (R5, R78; U3): none for the default, some f for another total function. -/
opaque fmulChoice : Option (B32 → B32 → B32)

end Sys2Proof.Config

namespace Sys2Proof

/-- A vector: VLEN lanes of B32 (R8). -/
abbrev Vec := Vector B32 Config.vlen

/-- The unspecified content ⊥ of a scratch vector: what arena address a holds at the start of block number n (R19, R115; U1's
oracle). Free. -/
opaque Config.scratchContent : (block : Nat) → (addr : Nat) → Vec

end Sys2Proof
end

