-- ==== Sys2Proof/Machine/Float32.lean ====
section
/-! DEFINITION. Binary32 (42_arithmetic R77, R78): the configuration functions FADD and FMUL, and their defaults under
roundTiesToEven, with FTZ and NAN_RESULT as parameters, quiet equality (43_control R84), the exact conversion of an immediate index (30_encoding R45), and the conversion of
a decimal (R54). Every finite binary32 is a whole number of UNITS of 2^-149, so sums and products are exact integers before
they are rounded once. -/

namespace Sys2Proof

/-! ### Fields and classes -/

/-- The sign bit, bit 31 (R77). -/
def B32.isNeg (b : B32) : Bool := b.getLsbD 31

/-- The biased exponent, bits 30 to 23 (R77). -/
def B32.expo (b : B32) : Nat := (b.extractLsb' 23 8).toNat

/-- The fraction, bits 22 to 0 (R77). -/
def B32.frac (b : B32) : Nat := (b.extractLsb' 0 23).toNat

/-- A NaN: exponent all ones, fraction nonzero (93 U4). -/
def B32.isNaN (b : B32) : Bool := b.expo == 255 && b.frac != 0

/-- An infinity. -/
def B32.isInf (b : B32) : Bool := b.expo == 255 && b.frac == 0

/-- A finite value. -/
def B32.isFinite (b : B32) : Bool := b.expo != 255

/-- +0 or -0. -/
def B32.isZero (b : B32) : Bool := b.expo == 0 && b.frac == 0

/-- A nonzero subnormal. -/
def B32.isSubnormal (b : B32) : Bool := b.expo == 0 && b.frac != 0

/-- Zero with a given sign. -/
def B32.signedZero (neg : Bool) : B32 := if neg then 0x80000000 else 0

/-- With FTZ, a subnormal is replaced by the zero of its sign (R78). -/
def B32.flush (ftz : Bool) (b : B32) : B32 := if b.isSubnormal && ftz then B32.signedZero b.isNeg else b

/-! ### Values in units of 2^-149 -/

/-- The magnitude of a finite value, in units of 2^-149. -/
def B32.units (b : B32) : Nat := if b.expo = 0 then b.frac else (2 ^ 23 + b.frac) * 2 ^ (b.expo - 1)

/-- The value of a finite pattern, in units of 2^-149. -/
def B32.value (b : B32) : Int := if b.isNeg then -(b.units : Int) else b.units

/-- The pattern of +infinity. -/
def B32.infBits : Nat := 0x7F800000

/-- The magnitude bits nearest to n/d units, ties to even (roundTiesToEven), infinity from 2^128 on. With q = ⌊n/d⌋, the
quantum is 2^k units, k = 0 in the subnormal range and below 2^24 units. -/
def B32.roundUnits (n d : Nat) : Nat :=
  let k := (n / d).log2 - 23
  let quantum := d * 2 ^ k
  let m := n / quantum
  let r := n % quantum
  let m' := if quantum < 2 * r ∨ (quantum = 2 * r ∧ m % 2 = 1) then m + 1 else m
  min (k * 2 ^ 23 + m') B32.infBits

/-- A pattern from its sign and its magnitude bits. -/
def B32.pack (neg : Bool) (magnitude : Nat) : B32 := BitVec.ofNat 32 ((if neg then 2 ^ 31 else 0) + magnitude)

/-! ### Lane operations -/

/-- Binary32 addition under roundTiesToEven, with `nan` for a NaN result (R78, R80). -/
def B32.addRne (ftz : Bool) (nan x y : B32) : B32 :=
  let a := x.flush ftz
  let b := y.flush ftz
  if a.isNaN || b.isNaN then nan
  else if a.isInf then (if b.isInf && (a.isNeg != b.isNeg) then nan else a)
  else if b.isInf then b
  else
    let sum := a.value + b.value
    if sum = 0 then B32.signedZero (a.isNeg && b.isNeg)
    else (B32.pack (decide (sum < 0)) (B32.roundUnits sum.natAbs 1)).flush ftz

/-- Binary32 multiplication under roundTiesToEven, with `nan` for a NaN result (R78, R81). -/
def B32.mulRne (ftz : Bool) (nan x y : B32) : B32 :=
  let a := x.flush ftz
  let b := y.flush ftz
  let neg := a.isNeg != b.isNeg
  if a.isNaN || b.isNaN then nan
  else if a.isInf then (if b.isZero then nan else B32.pack neg B32.infBits)
  else if b.isInf then (if a.isZero then nan else B32.pack neg B32.infBits)
  else (B32.pack neg (B32.roundUnits (a.units * b.units) (2 ^ 149))).flush ftz

/-- The default of FADD (R5, R78), with the open parameters FTZ and NAN_RESULT. -/
def faddDefault (x y : B32) : B32 := B32.addRne Config.ftz (Config.nanResult .add x y) x y

/-- The default of FMUL (R5, R78), with the open parameters FTZ and NAN_RESULT. -/
def fmulDefault (x y : B32) : B32 := B32.mulRne Config.ftz (Config.nanResult .mul x y) x y

/-- FADD of R5: the platform's function, or the default where it configures none. -/
def fadd (x y : B32) : B32 := Config.faddChoice.getD faddDefault x y

/-- FMUL of R5: the platform's function, or the default where it configures none. -/
def fmul (x y : B32) : B32 := Config.fmulChoice.getD fmulDefault x y

/-- feq of R84: quiet equality, false on a NaN, true for +0 against -0, subnormals read as zero under FTZ. -/
def B32.quietEq (ftz : Bool) (p q : B32) : Bool :=
  let a := p.flush ftz
  let b := q.flush ftz
  !a.isNaN && !b.isNaN && (a == b || (a.isZero && b.isZero))

/-! ### Conversions -/

/-- imm(n) = float(n) of R45, exact. -/
def immValue (n : BitVec 7) : B32 := B32.pack false (B32.roundUnits (n.toNat * 2 ^ 149) 1)

/-- The binary32 nearest to ±digits·10^(up - down), ties to even (R54). R54 does not say which zero a literal that is or rounds to zero
becomes, nor what one too large for binary32 becomes: the sign written is kept, so -0.0 and -1e-60 give 0x80000000, and a literal too
large becomes the infinity of its sign (DESIGN CHOICE, notes/assumptions/18). -/
def B32.ofDecimal (neg : Bool) (digits up down : Nat) : B32 :=
  B32.pack neg (B32.roundUnits (digits * 10 ^ up * 2 ^ 149) (10 ^ down))

end Sys2Proof
end

