-- ==== Sys2Proof/Machine/State.lean ====
section
/-! DEFINITION. The state of the mlvm execution block as plain data (10_state), the reasons a step can stop, and the state at
power-on (70_reset_and_hazards R109). -/

namespace Sys2Proof.Machine

/-- The reasons a step stops with a fault. There are none: every run-time fault of the block has an entry the spec describes
(60_exceptions R99), so the step that raises it goes to the state after fault entry, and 93_implementation_defined says that no
state of the block is stuck. Nobody raises a member of this type, which is safe: it has no members. -/
inductive Fault where
deriving DecidableEq, Repr

/-- The reasons a step is refused. -/
inductive Refusal where
  /-- Raised by exec for an instruction that has no meaning yet; no arm of this model raises it. Safe: the run stops. -/
  | notModelled (mnemonic : String)
deriving DecidableEq, Repr

/-- The run state (R24). -/
inductive RunState where
  | idle
  | running
deriving DecidableEq, Repr

/-- ZERO_VEC: +0.0 in every lane (R8). -/
def zeroVec : Vec := Vector.replicate Config.vlen 0

/-- The arena (R17) as a list of address and vector pairs in one canonical form: addresses strictly rising, no entry equal to
ZERO_VEC, which is what an address not listed reads as (R110 fills a new arena with ZERO_VEC). -/
abbrev Memory := List (Nat × Vec)

/-- A host transaction (R37): the three calls that act on the block. Status reads have no effect (R26) and are the function
readStatus. -/
inductive HostCall where
  | allocateMemory (sReq kReq : Nat)
  | setProgram (p : Program)
  | process (inputs : List Vec) (nout : Nat)
deriving DecidableEq, Repr

/-- A host call that is still to come: it arrives when `delay` more steps of the engine have passed. -/
structure HostEvent where
  delay : Nat
  call : HostCall
deriving DecidableEq, Repr

/-- The machine's state. A field's doc names the rule of the spec that gives it; the five fields at the end are the model's own. -/
structure State where
  /-- R0 to R127 (R11). -/
  regs : Vector Vec 128
  /-- The program counter, an instruction index (R14). -/
  pc : BitVec 15
  /-- pc_cur, the index of the instruction being executed, kept for the fault record (R14). -/
  pcCur : BitVec 15
  /-- The word view w of the instruction being executed, which the fetch reads (R67). -/
  insnWord : BitVec 32
  /-- The condition flag EQ (R15). -/
  eq : Bool
  /-- The step counter STEPS (R16). -/
  steps : Nat
  /-- ARENA_CAP (R17, status register 7). -/
  arenaCap : BitVec 15
  /-- The arena (R17). -/
  arena : Memory
  /-- IMEM (R20); its length is PROG_LEN (status register 8). -/
  imem : List Insn
  /-- The literal pool LIT (R21); its length is LIT_LEN (status register 9). -/
  lit : List B32
  /-- S of the active program, STATE_VECS (R22, status register 10). -/
  stateVecs : BitVec 15
  /-- K of the active program, SCRATCH_VECS (R22, status register 11). -/
  scratchVecs : BitVec 15
  /-- The pending-program buffer (R23). -/
  pending : Option Program
  /-- The run state (R24). -/
  runState : RunState
  /-- ALLOCATED (R25). -/
  allocated : Bool
  /-- STATUS[1:0] (R26, register 0). -/
  status : BitVec 2
  /-- FAULT_CAUSE[3:0] (R26, register 1). -/
  faultCause : BitVec 4
  /-- FAULT_PC[14:0] (R26, register 2). -/
  faultPc : BitVec 15
  /-- FAULT_INSN[31:0] (R26, register 3). -/
  faultInsn : BitVec 32
  /-- LOAD_STATUS[3:0] (R26, register 4). -/
  loadStatus : BitVec 4
  /-- ALLOC_STATUS[1:0] (R26, register 5). -/
  allocStatus : BitVec 2
  /-- The model's own: NOUT of the running process call, which its end still needs (R61, R72); 0 between calls, where the block holds
  no argument (R27). -/
  nout : Nat
  /-- The model's own: the output vectors a process call returns (R61, R72, R99), in the state in which it returns and in no other: the
  block holds no result between calls (R27). -/
  outputs : List Vec
  /-- The model's own: the host calls still to come, in order (R37, R106). -/
  hostCalls : List HostEvent
  /-- The model's own: the number of blocks started, which selects the free contents of scratch vectors (U1). -/
  blockNo : Nat
deriving DecidableEq, Repr

/-- Power-on (R109). The register file does not exist yet; the model holds ZERO_VEC in its place, which nothing can read. -/
def State.reset : State where
  regs := Vector.replicate 128 zeroVec
  pc := 0
  pcCur := 0
  insnWord := 0
  eq := false
  steps := 0
  arenaCap := 0
  arena := []
  imem := []
  lit := []
  stateVecs := 0
  scratchVecs := 0
  pending := none
  runState := .idle
  allocated := false
  status := 0
  faultCause := 0
  faultPc := 0
  faultInsn := 0
  loadStatus := 0
  allocStatus := 0
  nout := 0
  outputs := []
  hostCalls := []
  blockNo := 0

end Sys2Proof.Machine
end

