-- ==== Sys2Proof/Machine/Ops.lean ====
section
/-! DEFINITION. The shared operations over registers, arena and literal pool (00_scope R8, R9), fault entry (60_exceptions R99),
and the two exits of a block (40_dispatch R72). -/

namespace Sys2Proof.Machine

/-! ### Vectors -/

/-- broadcast(x) of R8. -/
def broadcast (x : B32) : Vec := Vector.replicate Config.vlen x

/-- lanewise(f, a, b) of R8: lane i is f(a[i], b[i]). -/
def lanewise (f : B32 → B32 → B32) (a b : Vec) : Vec := Vector.ofFn fun i => f a[i] b[i]

/-! ### The arena -/

/-- MemRead(a, 1) of R9; an address not listed holds ZERO_VEC. -/
def Memory.read : Memory → Nat → Vec
  | [], _ => zeroVec
  | (b, v) :: rest, a => if a = b then v else Memory.read rest a

/-- MemWrite(a, 1, v) of R9, keeping the canonical form. -/
def Memory.write : Memory → Nat → Vec → Memory
  | [], a, v => if v = zeroVec then [] else [(a, v)]
  | (b, u) :: rest, a, v =>
    if a < b then (if v = zeroVec then (b, u) :: rest else (a, v) :: (b, u) :: rest)
    else if a = b then (if v = zeroVec then rest else (a, v) :: rest)
    else (b, u) :: Memory.write rest a v

/-- The canonical form: addresses strictly rising, no entry equal to ZERO_VEC. -/
def Memory.wf : Memory → Bool
  | [] => true
  | (a, v) :: rest => decide (v ≠ zeroVec) && rest.all (fun e => decide (a < e.1)) && Memory.wf rest

/-- Every listed address is below n. -/
def Memory.below (n : Nat) (m : Memory) : Bool := m.all fun e => decide (e.1 < n)

/-! ### Registers and bounds -/

/-- R[i] of R9. -/
def State.readReg (s : State) (i : RegIdx) : Vec := s.regs[i.toNat]'i.isLt

/-- R[i] <- v of R9. -/
def State.writeReg (s : State) (i : RegIdx) (v : Vec) : State := { s with regs := s.regs.set i.toNat v i.isLt }

/-- S + K of the active program: the arena vectors it reaches (R18). -/
def State.arenaBound (s : State) : Nat := s.stateVecs.toNat + s.scratchVecs.toNat

/-- MemWrite on the state's arena. -/
def State.writeArena (s : State) (a : Nat) (v : Vec) : State := { s with arena := s.arena.write a v }

/-- An active program exists (R20: PROG_LEN is at least 1 exactly then). -/
def State.programValid (s : State) : Bool := !s.imem.isEmpty

/-! ### Fault entry -/

/-- The codes of R97. -/
def faultCode : FaultCause → BitVec 4
  | .undefinedOpcode => 1
  | .illegalOperand => 2
  | .storeToLiteral => 3
  | .arenaOutOfRange => 4
  | .literalOutOfRange => 5
  | .pcOutOfRange => 6
  | .stepLimit => 7

/-- STATUS codes of R26. -/
def statusOk : BitVec 2 := 0
/-- STATUS = FAULT (R26). -/
def statusFault : BitVec 2 := 1
/-- STATUS = NOT_READY (R26). -/
def statusNotReady : BitVec 2 := 2
/-- STATUS = BAD_IO (R26). -/
def statusBadIo : BitVec 2 := 3

/-- Fault entry (R99), the one way a block is aborted: the fault record from pc_cur and the word given (0 for a fault before
the fetch), silent outputs, STATUS = FAULT, run state IDLE. No register, arena vector, EQ or pc is written, nothing is rolled
back. The call returns here, so its NOUT is not held any longer (R27). There is no return from a fault (R100): the next block start
stands in its place. -/
def takeFault (c : FaultCause) (w : BitVec 32) (s : State) : State :=
  { s with
    faultCause := faultCode c
    faultPc := s.pcCur
    faultInsn := w
    nout := 0
    outputs := List.replicate s.nout zeroVec
    status := statusFault
    runState := .idle }

/-- Fault entry for a fault raised after the fetch: the word is the one fetched (R97, R99). -/
def raiseFault (c : FaultCause) (s : State) : State := takeFault c s.insnWord s

/-- Fault entry for a fault raised before the fetch: pc_cur is pc and the word is 0 (R65, R66, R97). -/
def raiseBeforeFetch (c : FaultCause) (s : State) : State := takeFault c 0 { s with pcCur := s.pc }

/-! ### The normal end of a block -/

/-- The output stage and the end of the transaction (R72); the call returns, and its NOUT is not held any longer (R27). -/
def outputStage (s : State) : State :=
  { s with nout := 0, outputs := s.regs.toList.take s.nout, status := statusOk, runState := .idle }

/-- The result of a call that has returned is the caller's: the block does not hold it (R27). -/
def State.handedOver (s : State) : State := { s with outputs := [] }

end Sys2Proof.Machine
end

