-- ==== Sys2Proof/Machine/Operands.lean ====
section
/-! DEFINITION. The addressing resolver (40_dispatch R69 to R71). -/

namespace Sys2Proof.Machine

/-- resolveValue of R69: a copy of the register, or the broadcast immediate. It raises no fault. -/
def resolveValue : Operand → State → Vec
  | .reg i, s => s.readReg i
  | .imm n, _ => broadcast (immValue n)

/-- resolveMemoryValue of R70: an arena vector below S + K, or a broadcast literal below LIT_LEN; else the range fault. -/
def resolveMemoryValue (space : Space) (addr : Addr) (s : State) : Except FaultCause Vec :=
  match space with
  | .arena => if s.arenaBound ≤ addr.toNat then .error .arenaOutOfRange else .ok (s.arena.read addr.toNat)
  | .literal =>
    match s.lit[addr.toNat]? with
    | none => .error .literalOutOfRange
    | some x => .ok (broadcast x)

/-- resolveMemoryDestination of R71: the arena address, below S + K; else the range fault. -/
def resolveMemoryDestination (addr : Addr) (s : State) : Except FaultCause Nat :=
  if s.arenaBound ≤ addr.toNat then .error .arenaOutOfRange else .ok addr.toNat

end Sys2Proof.Machine
end

