-- ==== Sys2Proof/Machine/Arithmetic.lean ====
section
/-! DEFINITION. ADD and MUL (42_arithmetic). -/

namespace Sys2Proof.Machine

/-- ADD (R80): both sources are read before Rd is written. -/
def execAdd (rd : RegIdx) (src1 src2 : Operand) (s : State) : Host.Outcome State Fault Refusal :=
  .next (s.writeReg rd (lanewise fadd (resolveValue src1 s) (resolveValue src2 s)))

/-- MUL (R81). -/
def execMul (rd : RegIdx) (src1 src2 : Operand) (s : State) : Host.Outcome State Fault Refusal :=
  .next (s.writeReg rd (lanewise fmul (resolveValue src1 s) (resolveValue src2 s)))

end Sys2Proof.Machine
end

