-- ==== Sys2Proof/Machine/Flags.lean ====
section
/-! DEFINITION. The one flag computation of the block: EQ (10_state R15, 43_control R84). -/

namespace Sys2Proof.Machine

/-- The new EQ of CMP (R84): every lane pair is quietly equal. -/
def allLanesEqual (x y : Vec) : Bool := decide (∀ i : Fin Config.vlen, B32.quietEq Config.ftz x[i] y[i] = true)

end Sys2Proof.Machine
end

