-- ==== Sys2Proof/Machine/Control.lean ====
section
/-! DEFINITION. NOOP, END, CMP, BNE and JMP (43_control). -/

namespace Sys2Proof.Machine

/-- pc <- target (R9, R47): a 14-bit instruction index. -/
def State.jumpTo (s : State) (target : Addr) : State := { s with pc := target.setWidth 15 }

/-- NOOP (R82): only the fetch's effects. -/
def execNoop (s : State) : Host.Outcome State Fault Refusal := .next s

/-- END (R83): the output stage, and the block is over. -/
def execEndOp (s : State) : Host.Outcome State Fault Refusal := .next (outputStage s)

/-- CMP (R84). -/
def execCmp (src1 src2 : Operand) (s : State) : Host.Outcome State Fault Refusal :=
  .next { s with eq := allLanesEqual (resolveValue src1 s) (resolveValue src2 s) }

/-- BNE (R85): taken when EQ is 0; otherwise pc keeps the fetch's pc_cur + 1. -/
def execBne (target : Addr) (s : State) : Host.Outcome State Fault Refusal :=
  .next (if s.eq then s else s.jumpTo target)

/-- JMP (R86). -/
def execJmp (target : Addr) (s : State) : Host.Outcome State Fault Refusal := .next (s.jumpTo target)

end Sys2Proof.Machine
end

