-- ==== Sys2Proof/Machine/DataMovement.lean ====
section
/-! DEFINITION. MOVE, LOAD and STORE (41_data_movement). The state a meaning is given is the state after the fetch (R67). -/

namespace Sys2Proof.Machine

/-- MOVE (R74). -/
def execMove (rd : RegIdx) (src : Operand) (s : State) : Host.Outcome State Fault Refusal :=
  .next (s.writeReg rd (resolveValue src s))

/-- LOAD (R75): a range fault is raised before the register is written. -/
def execLoad (rd : RegIdx) (space : Space) (addr : Addr) (s : State) : Host.Outcome State Fault Refusal :=
  match resolveMemoryValue space addr s with
  | .ok v => .next (s.writeReg rd v)
  | .error c => .next (raiseFault c s)

/-- STORE (R76): a range fault is raised before the arena is written. -/
def execStore (rs : RegIdx) (addr : Addr) (s : State) : Host.Outcome State Fault Refusal :=
  match resolveMemoryDestination addr s with
  | .ok a => .next (s.writeArena a (s.readReg rs))
  | .error c => .next (raiseFault c s)

end Sys2Proof.Machine
end

