-- ==== Sys2Proof/Machine/Reserved.lean ====
section
/-! DEFINITION. The reserved operations, ids 10 to 16 (44_reserved R88 to R95): executing one raises Fault(UNDEFINED_OPCODE)
after the fetch and before any write, and the block takes the fault entry of 60_exceptions R99. Their operand bytes are not
interpreted. -/

namespace Sys2Proof.Machine

/-- The common rule of ids 10 to 16 (R88). -/
def reservedOperation (s : State) : Host.Outcome State Fault Refusal := .next (raiseFault .undefinedOpcode s)

/-- SHIFT (R89). -/
def execShift (_dest _src1 _src2 : Byte) (s : State) : Host.Outcome State Fault Refusal := reservedOperation s

/-- INTERP (R90). -/
def execInterp (_dest _src1 _src2 : Byte) (s : State) : Host.Outcome State Fault Refusal := reservedOperation s

/-- SVF (R91). -/
def execSvf (_dest _src1 _src2 : Byte) (s : State) : Host.Outcome State Fault Refusal := reservedOperation s

/-- TEST1 (R92). -/
def execTest1 (_dest _src1 _src2 : Byte) (s : State) : Host.Outcome State Fault Refusal := reservedOperation s

/-- TEST2 (R93). -/
def execTest2 (_dest _src1 _src2 : Byte) (s : State) : Host.Outcome State Fault Refusal := reservedOperation s

/-- MOVE1 (R94). -/
def execMove1 (_dest _src1 _src2 : Byte) (s : State) : Host.Outcome State Fault Refusal := reservedOperation s

/-- LOAD1 (R95). -/
def execLoad1 (_dest _src1 _src2 : Byte) (s : State) : Host.Outcome State Fault Refusal := reservedOperation s

end Sys2Proof.Machine
end

