-- ==== Sys2Proof/Machine/Dispatch.lean ====
section
/-! DEFINITION. execute(dec) of 40_dispatch R68: one arm per instruction, each one call of its meaning. -/

namespace Sys2Proof.Machine

def exec (i : Instr) (s : State) : Host.Outcome State Fault Refusal :=
  match i with
  | .noop => Sys2Proof.Machine.execNoop s
  | .endOp => Sys2Proof.Machine.execEndOp s
  | .move rd src => Sys2Proof.Machine.execMove rd src s
  | .load rd space addr => Sys2Proof.Machine.execLoad rd space addr s
  | .store rs addr => Sys2Proof.Machine.execStore rs addr s
  | .cmp src1 src2 => Sys2Proof.Machine.execCmp src1 src2 s
  | .bne target => Sys2Proof.Machine.execBne target s
  | .jmp target => Sys2Proof.Machine.execJmp target s
  | .add rd src1 src2 => Sys2Proof.Machine.execAdd rd src1 src2 s
  | .mul rd src1 src2 => Sys2Proof.Machine.execMul rd src1 src2 s
  | .shift dest src1 src2 => Sys2Proof.Machine.execShift dest src1 src2 s
  | .interp dest src1 src2 => Sys2Proof.Machine.execInterp dest src1 src2 s
  | .svf dest src1 src2 => Sys2Proof.Machine.execSvf dest src1 src2 s
  | .test1 dest src1 src2 => Sys2Proof.Machine.execTest1 dest src1 src2 s
  | .test2 dest src1 src2 => Sys2Proof.Machine.execTest2 dest src1 src2 s
  | .move1 dest src1 src2 => Sys2Proof.Machine.execMove1 dest src1 src2 s
  | .load1 dest src1 src2 => Sys2Proof.Machine.execLoad1 dest src1 src2 s

end Sys2Proof.Machine
end

