-- ==== Sys2Proof/Machine/Validate.lean ====
section
/-! DEFINITION. validate(P), the load-time checks of setProgram (70_reset_and_hazards R112, R113), over the word views of the
program's instructions. -/

namespace Sys2Proof.Machine

/-- The result codes of setProgram (R113). -/
inductive LoadResult where
  | accepted
  | notAllocated
  | tooLong
  | literalPoolTooLarge
  | memoryTooLarge
  | badOpcode
  | badOperand
  | storeToLiteral
  | arenaBounds
  | literalBounds
  | branchBounds
  | noEnd
deriving DecidableEq, Repr

/-- The LOAD_STATUS codes of R113. -/
def loadCode : LoadResult → BitVec 4
  | .accepted => 0
  | .notAllocated => 1
  | .tooLong => 2
  | .literalPoolTooLarge => 3
  | .memoryTooLarge => 4
  | .badOpcode => 5
  | .badOperand => 6
  | .storeToLiteral => 7
  | .arenaBounds => 8
  | .literalBounds => 9
  | .branchBounds => 10
  | .noEnd => 11

/-- The limit on literals and on every 14-bit address space (R21, R112 check 3). -/
def poolLimit : Nat := 16384

/-- op = w[5:0] (R112). -/
def wordOp (w : BitVec 32) : Nat := (w.extractLsb' 0 6).toNat

/-- addr = w[22:16] over w[30:24], also the target of a branch (R112). -/
def wordAddr (w : BitVec 32) : Nat := (w.extractLsb' 16 7 ++ w.extractLsb' 24 7).toNat

/-- Check 5 of R112 fails on w: a nonzero opcode mode, or an id of 17 or more. -/
def badOpcode (w : BitVec 32) : Bool := w.extractLsb' 6 2 != 0 || decide (17 ≤ wordOp w)

/-- The load-time masks of check 6 (R112), STORE's with bit 23 cleared. The match of an operation is its id. -/
def operandMask : Nat → BitVec 32
  | 0 => 0xFFFFFFFF
  | 1 => 0xFFFFFFFF
  | 2 => 0xFF0080FF
  | 3 => 0x800080FF
  | 4 => 0x800080FF
  | 5 => 0x0000FFFF
  | 6 => 0x8080FFFF
  | 7 => 0x8080FFFF
  | _ => 0x000080FF

/-- Check 6 of R112 fails on w: an id up to 9 and a bit of its mask that differs from its match. -/
def badOperand (w : BitVec 32) : Bool :=
  decide (wordOp w ≤ 9) && (w &&& operandMask (wordOp w)) != BitVec.ofNat 32 (wordOp w)

/-- Check 7 of R112 fails on w: a STORE whose pair is LITERAL. -/
def storesToLiteral (w : BitVec 32) : Bool := wordOp w == 4 && w.getLsbD 23

/-- Check 8 of R112 fails on w: an arena address at or past S + K. -/
def arenaOutside (bound : Nat) (w : BitVec 32) : Bool :=
  ((wordOp w == 3 && !w.getLsbD 23) || wordOp w == 4) && decide (bound ≤ wordAddr w)

/-- Check 9 of R112 fails on w: a literal address at or past the pool length. -/
def literalOutside (length : Nat) (w : BitVec 32) : Bool :=
  wordOp w == 3 && w.getLsbD 23 && decide (length ≤ wordAddr w)

/-- Check 10 of R112 fails on w: a branch target at or past the program length. -/
def branchOutside (length : Nat) (w : BitVec 32) : Bool :=
  (wordOp w == 6 || wordOp w == 7) && decide (length ≤ wordAddr w)

/-- validate(P) of R112: the first check that fails, each applied to the whole program before the next, or ACCEPTED. -/
def validate (allocated : Bool) (arenaCap : Nat) (p : Program) : LoadResult :=
  let words := p.insns.map Insn.word
  if !allocated then .notAllocated
  else if Config.imemDepth < p.insns.length then .tooLong
  else if poolLimit < p.lit.length then .literalPoolTooLarge
  else if arenaCap < p.stateVecs + p.scratchVecs then .memoryTooLarge
  else if words.any badOpcode then .badOpcode
  else if words.any badOperand then .badOperand
  else if words.any storesToLiteral then .storeToLiteral
  else if words.any (arenaOutside (p.stateVecs + p.scratchVecs)) then .arenaBounds
  else if words.any (literalOutside p.lit.length) then .literalBounds
  else if words.any (branchOutside p.insns.length) then .branchBounds
  else if !words.contains 0x00000001 then .noEnd
  else .accepted

end Sys2Proof.Machine
end

