-- ==== Sys2Proof/Machine/Transactions.lean ====
section
/-! DEFINITION. The host's transactions: allocateMemory (70 R110), setProgram (R111), installation (R114), block start (R115),
process up to its first fetch (40_dispatch R61 to R63), and the reads of the status registers (10_state R26). -/

namespace Sys2Proof.Machine

/-! ### allocateMemory -/

/-- ALLOC_STATUS codes of R26: OK. -/
def allocOk : BitVec 2 := 0
/-- ALLOC_STATUS = ALLOC_FAIL (R26). -/
def allocFail : BitVec 2 := 1
/-- ALLOC_STATUS = BUSY (R26). -/
def allocBusy : BitVec 2 := 2

/-- A capacity-changing allocation (R110): new capacity, every register and arena vector ZERO_VEC, no active and no pending
program. -/
def resize (total : Nat) (s : State) : State :=
  { s with
    arenaCap := BitVec.ofNat 15 total
    allocated := true
    regs := Vector.replicate 128 zeroVec
    arena := []
    imem := []
    lit := []
    stateVecs := 0
    scratchVecs := 0
    pending := none
    allocStatus := allocOk }

/-- allocateMemory(S_req, K_req) of R110; the code it returns is ALLOC_STATUS. -/
def allocateMemory (sReq kReq : Nat) (s : State) : State :=
  if s.runState = .running then { s with allocStatus := allocBusy }
  else if Config.arenaMax < sReq + kReq then { s with allocStatus := allocFail }
  else if s.allocated = true ∧ sReq + kReq = s.arenaCap.toNat then { s with allocStatus := allocOk }
  else resize (sReq + kReq) s

/-! ### setProgram and installation -/

/-- setProgram(P) of R111; the code it returns is LOAD_STATUS. -/
def setProgram (p : Program) (s : State) : State :=
  let code := validate s.allocated s.arenaCap.toNat p
  { s with
    loadStatus := loadCode code
    pending := if code = .accepted then some p else s.pending }

/-- install() of R114, when the pending buffer is full. -/
def install (s : State) : State :=
  match s.pending with
  | none => s
  | some p =>
    { s with
      imem := p.insns
      lit := p.lit
      stateVecs := BitVec.ofNat 15 p.stateVecs
      scratchVecs := BitVec.ofNat 15 p.scratchVecs
      pending := none }

/-! ### Block start, input stage, process -/

/-- The scratch vectors S..S+K-1 take unspecified contents (R115): free values, drawn for this block and address (U1). -/
def scrambleScratch (block first count : Nat) (m : Memory) : Memory :=
  (List.range count).foldl (fun m j => m.write (first + j) (Config.scratchContent block (first + j))) m

/-- block_start() of R115. -/
def blockStart (s : State) : State :=
  let t := install s
  { t with
    pc := 0
    steps := 0
    eq := false
    arena := scrambleScratch t.blockNo t.stateVecs.toNat t.scratchVecs.toNat t.arena
    runState := .running
    blockNo := t.blockNo + 1 }

/-- The loop of the input stage (R63): inputs go to the registers from i on, in order, the others stay. -/
def inputRegs (i : Nat) : List Vec → Vector Vec 128 → Vector Vec 128
  | [], regs => regs
  | v :: rest, regs => inputRegs (i + 1) rest (regs.setIfInBounds i v)

/-- The input stage (R63). -/
def inputStage (inputs : List Vec) (s : State) : State := { s with regs := inputRegs 0 inputs s.regs }

/-- The refusals of R62, in order; none when the call is accepted. -/
def processRefusal (nin nout : Nat) (s : State) : Option (BitVec 2) :=
  if s.runState = .running then some statusNotReady
  else if s.allocated = false then some statusNotReady
  else if s.programValid = false ∧ s.pending = none then some statusNotReady
  else if nout = 0 ∨ 128 < nout then some statusBadIo
  else if 128 < nin then some statusBadIo
  else none

/-- process(inputs, NOUT) up to the dispatch loop (R61 phases 1 and 2), or its refusal, which changes only STATUS (R62). -/
def process (inputs : List Vec) (nout : Nat) (s : State) : State :=
  match processRefusal inputs.length nout s with
  | some code => { s with status := code }
  | none => inputStage inputs { (blockStart s).handedOver with nout := nout }

/-- One host transaction, uninterrupted (R37). -/
def hostCall (c : HostCall) (s : State) : State :=
  match c with
  | .allocateMemory sReq kReq => allocateMemory sReq kReq s
  | .setProgram p => setProgram p s
  | .process inputs nout => process inputs nout s

/-! ### Status registers -/

/-- A bit of a register, as a word. -/
def flagAt (n : Nat) (b : Bool) : BitVec 32 := if b then BitVec.ofNat 32 (2 ^ n) else 0

/-- ENGINE_FLAGS of R26: ALLOCATED, PROGRAM_VALID, PENDING, BUSY in bits 0 to 3. -/
def engineFlags (s : State) : BitVec 32 :=
  flagAt 0 s.allocated ||| flagAt 1 s.programValid ||| flagAt 2 s.pending.isSome ||| flagAt 3 (s.runState == .running)

/-- A host read of status register n, 0 to 11 (R26): 32 bits, unlisted bits 0, no side effect. -/
def readStatus (n : Fin 12) (s : State) : BitVec 32 :=
  match n with
  | 0 => s.status.setWidth 32
  | 1 => s.faultCause.setWidth 32
  | 2 => s.faultPc.setWidth 32
  | 3 => s.faultInsn
  | 4 => s.loadStatus.setWidth 32
  | 5 => s.allocStatus.setWidth 32
  | 6 => engineFlags s
  | 7 => s.arenaCap.setWidth 32
  | 8 => (BitVec.ofNat 15 s.imem.length).setWidth 32
  | 9 => (BitVec.ofNat 15 s.lit.length).setWidth 32
  | 10 => s.stateVecs.setWidth 32
  | 11 => s.scratchVecs.setWidth 32

end Sys2Proof.Machine
end

