-- ==== Sys2Proof/Machine/Engine.lean ====
section
/-! DEFINITION. The engine step of the dispatch loop (40_dispatch R64 to R67) and the order of engine steps and host calls. -/

namespace Sys2Proof.Machine

/-- The state after the fetch of instruction b at pc (R67). -/
def State.fetched (s : State) (b : Insn) : State :=
  { s with pcCur := s.pc, insnWord := b.word, pc := s.pc + 1, steps := s.steps + 1 }

/-- Decode and execute (R64): a decode fault takes its entry, an instruction runs its meaning. -/
def execute (b : Insn) (s : State) : Host.Outcome State Fault Refusal :=
  match decode b with
  | .error c => .next (raiseFault c s)
  | .ok i => exec i s

/-- step() of R64: the step ceiling (R65), the bound on pc (R66), the fetch, decode and execute. -/
def instructionStep (s : State) : Host.Outcome State Fault Refusal :=
  if s.steps = Config.maxSteps then .next (raiseBeforeFetch .stepLimit s)
  else
    match s.imem[s.pc.toNat]? with
    | none => .next (raiseBeforeFetch .pcOutOfRange s)
    | some b => execute b (s.fetched b)

/-- What the engine does in one step: an instruction while RUNNING; nothing while IDLE, where every piece of state keeps its
value (R108). -/
def engineStep (s : State) : Host.Outcome State Fault Refusal :=
  match s.runState with
  | .idle => .next s
  | .running => instructionStep s

/-- The next host call if it is due, else one engine step, by which the next host call comes nearer. -/
def agentStep (s : State) : Host.Outcome State Fault Refusal :=
  match s.hostCalls with
  | [] => engineStep s
  | e :: rest =>
    match e.delay with
    | 0 => .next (hostCall e.call { s with hostCalls := rest })
    | n + 1 => engineStep { s with hostCalls := { e with delay := n } :: rest }

/-- One step of the machine: what a call returned in the last step is handed over (R27), then the host or the engine acts. -/
def machineStep (s : State) : Host.Outcome State Fault Refusal := agentStep s.handedOver

/-- The instruction list with b at index n: the list is continued by words of zeros (NOOP) where it is too short. -/
def placeInsn (l : List Insn) (n : Nat) (b : Insn) : List Insn :=
  (l ++ List.replicate (n + 1 - l.length) (Insn.ofWord 0)).set n b

/-- The state whose next engine step fetches b: RUNNING, no host call due, below the step ceiling, b at pc. -/
def placeAtFetch (b : Insn) (s : State) : State :=
  { s with
    imem := placeInsn s.imem s.pc.toNat b
    runState := .running
    hostCalls := []
    steps := if s.steps = Config.maxSteps then 0 else s.steps }

end Sys2Proof.Machine
end

