-- ==== Sys2Proof/Machine/Step.lean ====
section
/-! DEFINITION. The machine's step, and the placing of one instruction where the step fetches next. -/

namespace Sys2Proof.Machine

/-- One step of the machine (R64; the host calls of R37 fall between engine steps). -/
def step (s : State) : Host.Outcome State Fault Refusal := machineStep s

/-- s with the instruction whose bits are w, nbits of them, where the next step fetches it: it stands for the load of a program
and the start of a block (notes/assumptions/16). -/
def State.withFetchWord (s : State) (nbits w : Nat) : State :=
  placeAtFetch (Insn.ofWord (BitVec.ofNat 32 (w % 2 ^ nbits))) s

end Sys2Proof.Machine
end

