-- ==== Sys2Proof/Machine/Assembler.lean ====
section
/-! DEFINITION. The assembler's input language and its encoding results (30_encoding R52 to R59): a pure function from text to a
program, or to the located error that rejects it. The assembler is software beside the block (00_scope R3, R4); no step of the
machine uses it. Where the rules leave a corner case open, the choice is the model's own (DESIGN CHOICE, notes/assumptions/18), and
the docstring of the definition that settles it says so. -/

namespace Sys2Proof.Machine

/-! ### Lexical rules (R52) -/

/-- The lines of a text, without their line feeds. R52 does not say what ends a line: the line feed alone does here (DESIGN CHOICE,
notes/assumptions/18). -/
def splitLines : List Char → List (List Char)
  | [] => [[]]
  | c :: cs =>
    match splitLines cs with
    | [] => [[c]]
    | l :: ls => if c = '\n' then [] :: l :: ls else (c :: l) :: ls

/-- A line without its comment, which `;` or `//` starts. -/
def stripComment : List Char → List Char
  | [] => []
  | c :: cs =>
    if c = ';' then []
    else if c = '/' ∧ cs.head? = some '/' then []
    else c :: stripComment cs

/-- Whitespace and commas part tokens (R52), which names no characters: whitespace is space, tab, carriage return and line feed
here (DESIGN CHOICE, notes/assumptions/18). -/
def isDelimiter (c : Char) : Bool := c.isWhitespace || c == ','

/-- The token gathered so far, kept in reverse; an empty one is no token. -/
def pushToken (rev : List Char) (rest : List (List Char)) : List (List Char) :=
  if rev.isEmpty then rest else rev.reverse :: rest

/-- The tokens of a line: parted at delimiters outside brackets, a bracketed group being one token whatever it contains. A bracket
starts a token of its own with no delimiter before it, and one that is not closed takes the rest of the line (DESIGN CHOICE,
notes/assumptions/18). -/
def tokenize : List Char → (rev : List Char) → (inGroup : Bool) → List (List Char)
  | [], rev, _ => pushToken rev []
  | c :: cs, rev, true => if c = ']' then pushToken (c :: rev) (tokenize cs [] false) else tokenize cs (c :: rev) true
  | c :: cs, rev, false =>
    if c = '[' then pushToken rev (tokenize cs [c] true)
    else if isDelimiter c then pushToken rev (tokenize cs [] false)
    else tokenize cs (c :: rev) false

/-- The tokens of a line. -/
def lineTokens (line : List Char) : List (List Char) := tokenize (stripComment line) [] false

/-! ### Numbers and names -/

/-- The value of a string of decimal digits. -/
def digitsValue (ds : List Char) : Nat := ds.foldl (fun n c => n * 10 + (c.toNat - '0'.toNat)) 0

/-- A decimal integer: one digit or more. R53 and R56 do not say whether the one after `#` may carry a sign or leading zeros: a sign
makes the token malformed and leading zeros are read (DESIGN CHOICE, notes/assumptions/18). -/
def parseNat (cs : List Char) : Option Nat :=
  if cs.isEmpty || !cs.all Char.isDigit then none else some (digitsValue cs)

/-- A sign, and the text after it. -/
def takeSign : List Char → Bool × List Char
  | '-' :: cs => (true, cs)
  | '+' :: cs => (false, cs)
  | cs => (false, cs)

/-- The exponent part of a decimal: nothing, or e and a signed integer; its sign and magnitude. -/
def parseExponent : List Char → Option (Bool × Nat)
  | [] => some (false, 0)
  | c :: cs =>
    if c = 'e' ∨ c = 'E' then (parseNat (takeSign cs).2).map fun n => ((takeSign cs).1, n) else none

/-- A decimal floating-point number of R53 item 4, as the nearest binary32, ties to even (R54). -/
def parseDecimal (cs : List Char) : Option B32 :=
  let body := (takeSign cs).2
  let whole := body.takeWhile Char.isDigit
  let afterWhole := body.dropWhile Char.isDigit
  let dotted := afterWhole.head? = some '.'
  let fracText := if dotted then afterWhole.tail else []
  let fraction := fracText.takeWhile Char.isDigit
  let expText := if dotted then fracText.dropWhile Char.isDigit else afterWhole
  if whole.isEmpty && fraction.isEmpty then none
  else
    (parseExponent expText).map fun e =>
      let digits := digitsValue (whole ++ fraction)
      if e.1 then B32.ofDecimal (takeSign cs).1 digits 0 (fraction.length + e.2)
      else B32.ofDecimal (takeSign cs).1 digits (e.2 - fraction.length) (fraction.length - e.2)

/-- A name [A-Za-z_][A-Za-z0-9_]* (R53 item 5, R56). -/
def isName : List Char → Bool
  | [] => false
  | c :: cs =>
    let letter (c : Char) : Bool := ('a' ≤ c && c ≤ 'z') || ('A' ≤ c && c ≤ 'Z') || c == '_'
    letter c && cs.all fun d => letter d || d.isDigit

/-- A register token: R or r and a number in 0..127 (R53 item 1). -/
def parseRegister : List Char → Option RegIdx
  | [] => none
  | c :: cs =>
    if c = 'R' ∨ c = 'r' then
      match parseNat cs with
      | some n => if n < 128 then some (BitVec.ofNat 7 n) else none
      | none => none
    else none

/-! ### Operand tokens (R53) -/

/-- A classified operand token. A `#` token keeps its number: the bound is 127 for an immediate and 16383 for a target (R53,
R56). -/
inductive Token where
  | register (n : RegIdx)
  | hash (n : Nat)
  | memory (hi lo : BitVec 7)
  | literal (x : B32)
  | label (name : List Char)
  | malformed
deriving DecidableEq, Repr

/-- The low half of a memory reference: Ro or #i (R55). -/
def parseOffset (cs : List Char) : Option (BitVec 7) :=
  match cs with
  | '#' :: ds =>
    match parseNat ds with
    | some n => if n < 128 then some (BitVec.ofNat 7 n) else none
    | none => none
  | _ => parseRegister cs

/-- The fields of a bracketed group: what stands between its commas, an empty field included. -/
def splitCommas : List Char → List (List Char)
  | [] => [[]]
  | c :: cs =>
    match splitCommas cs with
    | [] => [[c]]
    | f :: fs => if c = ',' then [] :: f :: fs else (c :: f) :: fs

/-- A text without the whitespace at its ends. -/
def trim (cs : List Char) : List Char :=
  ((cs.dropWhile Char.isWhitespace).reverse.dropWhile Char.isWhitespace).reverse

/-- The inside of a bracketed group: Rb, or Rb, one comma and an offset (R53 item 3, R55); anything else is malformed (item 6).
Whitespace around a field is allowed or left out at will (DESIGN CHOICE, notes/assumptions/18). -/
def parseMemory (inside : List Char) : Token :=
  match (splitCommas inside).map trim with
  | [b] => match parseRegister b with
    | some hi => .memory hi 0
    | none => .malformed
  | [b, o] => match parseRegister b, parseOffset o with
    | some hi, some lo => .memory hi lo
    | _, _ => .malformed
  | _ => .malformed

/-- A literal without its optional `=` (R53 item 4). -/
def literalText : List Char → List Char
  | '=' :: cs => cs
  | cs => cs

/-- The classes of R53, in order. A field out of its range falls to a later class, and so decides the reason R58 reports for it: R128
is a label name, [R128] is malformed, #128 keeps its number (DESIGN CHOICE where several reasons fit, notes/assumptions/18). -/
def classify (cs : List Char) : Token :=
  match parseRegister cs with
  | some n => .register n
  | none =>
    match cs with
    | '#' :: ds =>
      match parseNat ds with
      | some n => .hash n
      | none => .malformed
    | '[' :: inside => if inside.getLast? = some ']' then parseMemory inside.dropLast else .malformed
    | _ =>
      match parseDecimal (literalText cs) with
      | some x => .literal x
      | none => if isName cs then .label cs else .malformed

/-! ### Assembly -/

/-- Why an assembly fails (R58). Which reason is reported where several fit one line is the model's choice (DESIGN CHOICE,
notes/assumptions/18). -/
inductive AsmError where
  | malformedOperand
  | operandCount
  | operandClass
  | outOfRange
  | storeToLiteral
  | literalPoolTooLong
  | tooManyInstructions
  | duplicateLabel
  | undefinedLabel
deriving DecidableEq, Repr

/-- An emitted instruction, or a branch whose label is still to be resolved (R56). -/
inductive Item where
  | done (i : Instr)
  | branch (line : Nat) (isBne : Bool) (name : List Char)
deriving DecidableEq, Repr

/-- What the assembler has built so far, the items in reverse: literals (R54), labels (R56), and 1 + the largest arena
address (R59). -/
structure AsmState where
  revItems : List Item
  lit : List B32
  labels : List (List Char × Nat)
  arenaTop : Nat
deriving DecidableEq, Repr

/-- The assembler's start: an empty pool for each assembly (R54). -/
def AsmState.initial : AsmState := ⟨[], [], [], 0⟩

/-- Emits one item; at most 16384 instructions (R58). -/
def emit (item : Item) (st : AsmState) : Except AsmError AsmState :=
  if 16384 ≤ st.revItems.length then .error .tooManyInstructions else .ok { st with revItems := item :: st.revItems }

/-- A token where a register is due. -/
def asRegister : Token → Except AsmError RegIdx
  | .register n => .ok n
  | .malformed => .error .malformedOperand
  | _ => .error .operandClass

/-- A token where a register-class operand is due (R53, R57); an immediate above 127 is out of range. -/
def asOperand : Token → Except AsmError Operand
  | .register n => .ok (.reg n)
  | .hash n => if n < 128 then .ok (.imm (BitVec.ofNat 7 n)) else .error .outOfRange
  | .malformed => .error .malformedOperand
  | _ => .error .operandClass

/-- Notes an arena address of a memory reference (R55, R59). -/
def noteArena (a : Addr) (st : AsmState) : AsmState := { st with arenaTop := max st.arenaTop (a.toNat + 1) }

/-- LDR Rd, mem or LDR Rd, lit (R54, R55, R57). A full literal pool is reported before a full program (DESIGN CHOICE,
notes/assumptions/18). -/
def asmLoad (rd : RegIdx) (t : Token) (st : AsmState) : Except AsmError AsmState :=
  match t with
  | .memory hi lo => emit (.done (.load rd .arena (packAddress hi lo))) (noteArena (packAddress hi lo) st)
  | .literal x =>
    if 16384 ≤ st.lit.length then .error .literalPoolTooLong
    else emit (.done (.load rd .literal (BitVec.ofNat 14 st.lit.length))) { st with lit := st.lit ++ [x] }
  | .malformed => .error .malformedOperand
  | _ => .error .operandClass

/-- STR Rs, mem; a literal is an error of its own (R57). -/
def asmStore (rs : RegIdx) (t : Token) (st : AsmState) : Except AsmError AsmState :=
  match t with
  | .memory hi lo => emit (.done (.store rs (packAddress hi lo))) (noteArena (packAddress hi lo) st)
  | .literal _ => .error .storeToLiteral
  | .malformed => .error .malformedOperand
  | _ => .error .operandClass

/-- A branch instruction. -/
def branchInstr (isBne : Bool) (target : Addr) : Instr := if isBne then .bne target else .jmp target

/-- BNE or JMP with #t, t below 16384, or a label to resolve later (R56). -/
def asmBranch (line : Nat) (isBne : Bool) (t : Token) (st : AsmState) : Except AsmError AsmState :=
  match t with
  | .hash n => if n < 16384 then emit (.done (branchInstr isBne (BitVec.ofNat 14 n))) st else .error .outOfRange
  | .label name => emit (.branch line isBne name) st
  | .malformed => .error .malformedOperand
  | _ => .error .operandClass

/-- The operations a mnemonic can name (R57). -/
inductive AsmOp where
  | noop
  | endOp
  | move
  | load
  | store
  | cmp
  | bne
  | jmp
  | add
  | mul
deriving DecidableEq, Repr

/-- The spellings of R57, in upper case. -/
def mnemonicTable : List (String × AsmOp) :=
  [("NOP", .noop), ("NOOP", .noop), ("END", .endOp), ("MOV", .move), ("MOVE", .move), ("LDR", .load), ("LOAD", .load),
    ("STR", .store), ("STORE", .store), ("CMP", .cmp), ("BNE", .bne), ("JMP", .jmp), ("ADD", .add), ("MUL", .mul)]

/-- The operation of a mnemonic token, case-folded (R52) in the letters of ASCII (DESIGN CHOICE, notes/assumptions/18); none for an
unknown mnemonic. -/
def lookupMnemonic (cs : List Char) : Option AsmOp :=
  (mnemonicTable.find? fun row => row.1.toList == cs.map Char.toUpper).map Prod.snd

/-- One instruction from its operation and operand tokens (R57). Of the statement's errors the count is looked at first, then the
operands from left to right (DESIGN CHOICE, notes/assumptions/18). -/
def asmInstr (line : Nat) (op : AsmOp) (operands : List Token) (st : AsmState) : Except AsmError AsmState :=
  match op, operands with
  | .noop, [] => emit (.done .noop) st
  | .endOp, [] => emit (.done .endOp) st
  | .move, [d, a] => do emit (.done (.move (← asRegister d) (← asOperand a))) st
  | .load, [d, m] => do asmLoad (← asRegister d) m st
  | .store, [d, m] => do asmStore (← asRegister d) m st
  | .cmp, [a, b] => do emit (.done (.cmp (← asOperand a) (← asOperand b))) st
  | .bne, [t] => asmBranch line true t st
  | .jmp, [t] => asmBranch line false t st
  | .add, [d, a, b] => do emit (.done (.add (← asRegister d) (← asOperand a) (← asOperand b))) st
  | .mul, [d, a, b] => do emit (.done (.mul (← asRegister d) (← asOperand a) (← asOperand b))) st
  | _, _ => .error .operandCount

/-- The label a first token defines (R56): `name:` where name is a name and no register token. -/
def labelOf (tok : List Char) : Option (List Char) :=
  if tok.getLast? = some ':' ∧ isName tok.dropLast = true ∧ parseRegister tok.dropLast = none then some tok.dropLast
  else none

/-- Defines a label as the index of the next instruction emitted (R56). Label names that differ in case are different names (DESIGN
CHOICE, notes/assumptions/18). -/
def defineLabel (name : List Char) (st : AsmState) : Except AsmError AsmState :=
  if st.labels.any fun l => l.1 == name then .error .duplicateLabel
  else .ok { st with labels := (name, st.revItems.length) :: st.labels }

/-- The tokens of a line as the label they define, if any, and the statement after it (R52, R56). -/
def splitLabel (tokens : List (List Char)) : Option (List Char) × List (List Char) :=
  match tokens with
  | [] => (none, [])
  | first :: rest =>
    match labelOf first with
    | none => (none, first :: rest)
    | some name => (some name, rest)

/-- The statement of a line, its label taken off: nothing, a dropped line, which emits nothing (R58), or an instruction. -/
def asmStatement (line : Nat) (tokens : List (List Char)) (st : AsmState) : Except AsmError AsmState :=
  match tokens with
  | [] => .ok st
  | m :: operands =>
    match lookupMnemonic m with
    | none => .ok st
    | some op => asmInstr line op (operands.map classify) st

/-- One line (R52, R56). The label is defined before the statement is looked at, so that where a line has both an error of its label
and one of its statement, the label's is the reason reported (DESIGN CHOICE, notes/assumptions/18). -/
def asmLine (line : Nat) (text : List Char) (st : AsmState) : Except AsmError AsmState :=
  match splitLabel (lineTokens text) with
  | (none, statement) => asmStatement line statement st
  | (some name, statement) => do asmStatement line statement (← defineLabel name st)

/-- A line whose mnemonic is unknown, which R58 drops with a diagnostic. -/
def unknownMnemonic (text : List Char) : Bool :=
  match (splitLabel (lineTokens text)).2 with
  | [] => false
  | m :: _ => (lookupMnemonic m).isNone

/-- The numbers of the lines with an unknown mnemonic, from the number given on: the diagnostics that do not fail the assembly
(R58). -/
def droppedLines : Nat → List (List Char) → List Nat
  | _, [] => []
  | n, l :: ls => if unknownMnemonic l then n :: droppedLines (n + 1) ls else droppedLines (n + 1) ls

/-- The result of an assembly (R58): a self-contained program, or the line and the reason of the error that fails it; with either, the
lines dropped with a diagnostic of their own. -/
inductive AsmResult where
  | program (p : Program) (dropped : List Nat)
  | failed (line : Nat) (reason : AsmError) (dropped : List Nat)
deriving DecidableEq, Repr

/-- All lines, numbered from the number given. -/
def asmLines : Nat → List (List Char) → AsmState → Except (Nat × AsmError) AsmState
  | _, [], st => .ok st
  | n, l :: ls, st =>
    match asmLine n l st with
    | .error e => .error (n, e)
    | .ok st' => asmLines (n + 1) ls st'

/-- An item with its label resolved to an absolute instruction index (R56). -/
def resolveItem (labels : List (List Char × Nat)) : Item → Except (Nat × AsmError) Insn
  | .done i => .ok (encode i)
  | .branch line isBne name =>
    match labels.find? fun l => l.1 == name with
    | none => .error (line, .undefinedLabel)
    | some l => if l.2 < 16384 then .ok (encode (branchInstr isBne (BitVec.ofNat 14 l.2))) else .error (line, .outOfRange)

/-- All items in order. -/
def resolveItems (labels : List (List Char × Nat)) : List Item → Except (Nat × AsmError) (List Insn)
  | [] => .ok []
  | i :: is => do
    let b ← resolveItem labels i
    let bs ← resolveItems labels is
    .ok (b :: bs)

/-- The assembler (R52 to R59): the program with (S, K) = (1 + the largest arena address named, 0), or the first error, and the lines
dropped in the whole text. Lines are numbered from 1. -/
def assemble (text : List Char) : AsmResult :=
  let dropped := droppedLines 1 (splitLines text)
  match asmLines 1 (splitLines text) AsmState.initial with
  | .error (line, e) => .failed line e dropped
  | .ok st =>
    match resolveItems st.labels st.revItems.reverse with
    | .error (line, e) => .failed line e dropped
    | .ok insns => .program ⟨insns, st.lit, st.arenaTop, 0⟩ dropped

end Sys2Proof.Machine
end

