-- ==== Sys2Proof/WellFormed.lean ====
section
/-! DEFINITION. When an instruction is well formed in a program: the address and target bounds that the Program invariant
gives every instruction (40_dispatch R70 quotes it; 70 R112 checks 8, 9 and 10). The width of every field is already in the
type of Instr, so no other term is ill formed. -/

namespace Sys2Proof

/-- The bounds a program sets: S + K, the literal-pool length, the program length. -/
structure Bounds where
  arena : Nat
  literals : Nat
  length : Nat
deriving DecidableEq, Repr

/-- The bounds of a program (R111). -/
def Program.bounds (p : Program) : Bounds := ⟨p.stateVecs + p.scratchVecs, p.lit.length, p.insns.length⟩

/-- Check 8 of R112: an arena address of LOAD or STORE is below S + K. -/
def Instr.arenaInBounds (b : Bounds) : Instr → Bool
  | .load _ .arena addr => addr.toNat < b.arena
  | .store _ addr => addr.toNat < b.arena
  | .load _ .literal _ => true
  | .noop | .endOp | .move _ _ | .cmp _ _ | .bne _ | .jmp _ | .add _ _ _ | .mul _ _ _ => true
  | .shift _ _ _ | .interp _ _ _ | .svf _ _ _ | .test1 _ _ _ | .test2 _ _ _ | .move1 _ _ _ | .load1 _ _ _ => true

/-- Check 9 of R112: a literal address is below the pool length. -/
def Instr.literalInBounds (b : Bounds) : Instr → Bool
  | .load _ .literal addr => addr.toNat < b.literals
  | .load _ .arena _ => true
  | .noop | .endOp | .move _ _ | .store _ _ | .cmp _ _ | .bne _ | .jmp _ | .add _ _ _ | .mul _ _ _ => true
  | .shift _ _ _ | .interp _ _ _ | .svf _ _ _ | .test1 _ _ _ | .test2 _ _ _ | .move1 _ _ _ | .load1 _ _ _ => true

/-- Check 10 of R112: a branch target is below the program length. -/
def Instr.targetInBounds (b : Bounds) : Instr → Bool
  | .bne target => target.toNat < b.length
  | .jmp target => target.toNat < b.length
  | .noop | .endOp | .move _ _ | .load _ _ _ | .store _ _ | .cmp _ _ | .add _ _ _ | .mul _ _ _ => true
  | .shift _ _ _ | .interp _ _ _ | .svf _ _ _ | .test1 _ _ _ | .test2 _ _ _ | .move1 _ _ _ | .load1 _ _ _ => true

/-- An instruction is well formed in a program with these bounds. -/
def Instr.wellFormed (b : Bounds) (i : Instr) : Bool :=
  i.arenaInBounds b && i.literalInBounds b && i.targetInBounds b

end Sys2Proof
end

