-- ==== Sys2Proof/Safety.lean ====
section
/-! DEFINITION. What the claims are stated in: the machine invariant, the acceptance of the active program, and the moments
between steps. -/

namespace Sys2Proof.Machine

/-- The host calls after one engine step: the next one is nearer by one. -/
def tickCalls : List HostEvent → List HostEvent
  | [] => []
  | e :: rest => { e with delay := e.delay - 1 } :: rest

/-- The state with its host calls nearer by one engine step, and with no result of a call held any longer (R27). -/
def State.ticked (s : State) : State := { s with hostCalls := tickCalls s.hostCalls, outputs := [] }

/-- No host call is due at this moment, so the next step is the engine's. -/
def State.engineTurn (s : State) : Bool :=
  match s.hostCalls with
  | [] => true
  | e :: _ => e.delay != 0

/-- The next step fetches the instruction b: RUNNING, the engine's turn, below the step ceiling (R65), pc inside the program
(R66). -/
structure State.FetchesNext (s : State) (b : Insn) : Prop where
  running : s.runState = .running
  turn : s.engineTurn = true
  belowCeiling : s.steps ≠ Config.maxSteps
  insn : s.imem[s.pc.toNat]? = some b

/-- The active program as a program (R20 to R22). -/
def State.activeProgram (s : State) : Program := ⟨s.imem, s.lit, s.stateVecs.toNat, s.scratchVecs.toNat⟩

/-- The machine invariant: the arena in its canonical form and inside its capacity (R17), capacity inside ARENA_MAX (R17), the
program's requirement inside the capacity (R18, R22), the sizes of IMEM and LIT (R20, R21), STEPS and pc in their ranges (R14,
R16), the status codes that are ever written (R26, R97, R113), a RUNNING block allocated, with a program, 1 to 128 outputs asked for
(R62) and none written, no output count held while IDLE (R27), and a pending program that validation accepts (R23). -/
structure State.Inv (s : State) : Prop where
  arenaCanonical : s.arena.wf = true
  arenaInside : s.arena.below s.arenaCap.toNat = true
  capacity : s.arenaCap.toNat ≤ Config.arenaMax
  requirement : s.arenaBound ≤ s.arenaCap.toNat
  programLength : s.imem.length ≤ Config.imemDepth
  poolLength : s.lit.length ≤ poolLimit
  stepCeiling : s.steps ≤ Config.maxSteps
  pcRange : s.pc.toNat ≤ 16384
  causeCodes : s.faultCause.toNat ≤ 7
  loadCodes : s.loadStatus.toNat ≤ 11
  allocCodes : s.allocStatus.toNat ≤ 2
  runningBlock : s.runState = .running → s.allocated = true ∧ s.imem ≠ [] ∧ 1 ≤ s.nout ∧ s.nout ≤ 128
  noResultYet : s.runState = .running → s.outputs = []
  noCallHeld : s.runState = .idle → s.nout = 0
  pendingAccepted : ∀ p, s.pending = some p → validate s.allocated s.arenaCap.toNat p = .accepted

/-- An active program, where there is one, is a program that validation accepts under the capacity in force (R112). -/
def State.ActiveAccepted (s : State) : Prop :=
  s.imem ≠ [] → validate s.allocated s.arenaCap.toNat s.activeProgram = .accepted

/-- The state differs from s in the vector registers alone. -/
def State.sameButRegs (s t : State) : Prop := t = { s with regs := t.regs }

/-- The fault entry of R99 with a cause code from state s: the record, silence on the outputs, FAULT, IDLE, the
call over, and nothing else. -/
structure FaultEntered (code : BitVec 4) (pc : BitVec 15) (w : BitVec 32) (s t : State) : Prop where
  cause : t.faultCause = code
  faultPc : t.faultPc = pc
  faultInsn : t.faultInsn = w
  silence : t.outputs = List.replicate s.nout zeroVec
  status : t.status = 1
  idle : t.runState = .idle
  released : t.nout = 0
  rest : t = { s with
    pcCur := t.pcCur, faultCause := t.faultCause, faultPc := t.faultPc, faultInsn := t.faultInsn, nout := t.nout,
    outputs := t.outputs, status := t.status, runState := t.runState }

end Sys2Proof.Machine
end

