-- ==== Sys2Proof/Certificates/Slice0/Obligations.lean ====
section
/-! DEFINITION. The statements for the provers, each a Prop, none proved here. Where a statement rests on a choice of the model,
its docstring names the log entry. -/

open Sys2Proof Sys2Proof.Machine

namespace Sys2Proof.Claims

/-- Lane i of a register-class operand (R44, R69). -/
def operandLane (o : Operand) (s : State) (i : Fin Config.vlen) : B32 :=
  match o with
  | .reg r => (s.readReg r)[i]
  | .imm n => immValue n

/-- The bits of a word that the decoder of R50 does not ignore, by operation id (R51 class 6). -/
def significantBits : Nat → BitVec 32
  | 0 => 0x000000FF
  | 1 => 0x000000FF
  | 2 => 0x00FFFFFF
  | 3 => 0x7FFFFFFF
  | 4 => 0x7FFFFFFF
  | 5 => 0xFFFF00FF
  | 6 => 0x7F7F00FF
  | 7 => 0x7F7F00FF
  | _ => 0xFFFFFFFF

/-- Nothing but the fetch of b has happened since s: pc, pc_cur, the word, STEPS, the host calls nearer by one (R67), and no result of
a call held (R27). -/
def afterFetch (s : State) (b : Insn) : State :=
  { s with
    pcCur := s.pc, insnWord := b.word, pc := s.pc + 1, steps := s.steps + 1, hostCalls := tickCalls s.hostCalls,
    outputs := [] }

/-- Every register but rd, every arena vector and every other field are as in s. -/
structure OnlyRegister (rd : RegIdx) (s t : State) : Prop where
  others : ∀ r, r ≠ rd → t.readReg r = s.readReg r
  memory : ∀ a, t.arena.read a = s.arena.read a
  rest : s.sameButRegs t

/-- Everything but the arena is as in s, and every arena vector but the one at a. -/
structure OnlyArena (a : Nat) (s t : State) : Prop where
  others : ∀ b, b ≠ a → t.arena.read b = s.arena.read b
  registers : ∀ r, t.readReg r = s.readReg r
  rest : t = { s with arena := t.arena }

/-- The word views of a program's instructions (R112). -/
def wordsOf (p : Program) : List (BitVec 32) := p.insns.map Insn.word

/-- op = w[5:0] (R112). -/
def opOf (w : BitVec 32) : Nat := (w.extractLsb' 0 6).toNat

/-- addr = w[22:16] over w[30:24], which is a branch's target too (R112). -/
def addrOf (w : BitVec 32) : Nat := 128 * (w.extractLsb' 16 7).toNat + (w.extractLsb' 24 7).toNat

/-- The load-time masks of check 6, as the points after the table of R112 list them, STORE's with bit 23 cleared; the match of each is
the operation id. -/
def loadMasks : List (BitVec 32) :=
  [0xFFFFFFFF, 0xFFFFFFFF, 0xFF0080FF, 0x800080FF, 0x800080FF, 0x0000FFFF, 0x8080FFFF, 0x8080FFFF, 0x000080FF, 0x000080FF]

/-- Check k of the table of R112 fails on the program, with the given ALLOCATED and ARENA_CAP. -/
def LoadCheckFails (allocated : Bool) (cap : Nat) (p : Program) (k : Nat) : Prop :=
  match k with
  | 1 => allocated = false
  | 2 => Config.imemDepth < p.insns.length
  | 3 => 16384 < p.lit.length
  | 4 => cap < p.stateVecs + p.scratchVecs
  | 5 => ∃ w ∈ wordsOf p, w.extractLsb' 6 2 ≠ 0 ∨ 17 ≤ opOf w
  | 6 => ∃ w ∈ wordsOf p, ∃ mask, loadMasks[opOf w]? = some mask ∧ w &&& mask ≠ BitVec.ofNat 32 (opOf w)
  | 7 => ∃ w ∈ wordsOf p, opOf w = 4 ∧ w.getLsbD 23 = true
  | 8 => ∃ w ∈ wordsOf p, ((opOf w = 3 ∧ w.getLsbD 23 = false) ∨ opOf w = 4) ∧ p.stateVecs + p.scratchVecs ≤ addrOf w
  | 9 => ∃ w ∈ wordsOf p, opOf w = 3 ∧ w.getLsbD 23 = true ∧ p.lit.length ≤ addrOf w
  | 10 => ∃ w ∈ wordsOf p, (opOf w = 6 ∨ opOf w = 7) ∧ p.insns.length ≤ addrOf w
  | 11 => 0x00000001 ∉ wordsOf p
  | _ => False

/-- The magnitude in units of 2^-149 of a pattern given by its 31 magnitude bits. -/
def unitsOfBits (m : Nat) : Nat := B32.units (BitVec.ofNat 32 m)

/-- The distance between two numbers. -/
def distance (a b : Nat) : Nat := (a - b) + (b - a)

/-- The pattern r is ±n/d units rounded by roundTiesToEven: the sign given; infinity from the midpoint past the largest finite value
on; else no finite pattern is nearer, and a tie goes to the pattern whose last bit is 0. -/
structure RoundedToEven (neg : Bool) (n d : Nat) (r : B32) : Prop where
  sign : r.isNeg = neg
  number : r.isNaN = false
  overflow : r.isInf = true ↔ (2 ^ 25 - 1) * 2 ^ 252 * d ≤ n
  nearest : r.isFinite = true → ∀ z : B32, z.isFinite = true → distance n (d * r.units) ≤ distance n (d * z.units)
  tie : r.isFinite = true → ∀ z : B32, z.isFinite = true → distance n (d * r.units) = distance n (d * z.units) →
    z.units ≠ r.units → r.getLsbD 0 = false

end Sys2Proof.Claims

open Sys2Proof.Claims

/-! ### Encoding -/

/-- Decoding the encoding of any instruction gives it back, at every value of every operand (R42, R46, R49, R50). That the ids
10 to 16, for which R50 answers a fault, decode to reserved instructions is the model's split, notes/assumptions/7. -/
def Obligations.DecodeInvertsEncode : Prop := ∀ i : Instr, decode (encode i) = .ok i

/-- Each word that passes the load-time checks on its form (70 R112 checks 5 to 7) is the encoding of the instruction it decodes
to, so that its whole word is significant. For the ids 10 to 16, which R50 refuses when they are executed, this rests on the model's
split, notes/assumptions/7. -/
def Obligations.LoadValidWordsAreEncodings : Prop :=
  ∀ b : Insn, badOpcode b.word = false → badOperand b.word = false → storesToLiteral b.word = false →
    ∃ i, decode b = .ok i ∧ encode i = b

/-- A word with id 0 to 9 decodes as the same word with its ignored bits cleared (R51 class 6). -/
def Obligations.IgnoredBitsDoNotMatter : Prop :=
  ∀ w : BitVec 32, (w.extractLsb' 0 6).toNat ≤ 9 →
    decode (Insn.ofWord w) = decode (Insn.ofWord (w &&& significantBits (w.extractLsb' 0 6).toNat))

/-- When the decoder refuses a word, and with which cause (R50, R98). The ids 10 to 16 decode to reserved instructions that
raise UNDEFINED_OPCODE when executed: the model's split of R50, notes/assumptions/7. -/
def Obligations.DecodeFaultsExactly : Prop :=
  ∀ (w : BitVec 32) (c : FaultCause),
    decode (Insn.ofWord w) = .error c ↔
      (c = .undefinedOpcode ∧ (w.extractLsb' 6 2 ≠ 0 ∨ 17 ≤ (w.extractLsb' 0 6).toNat)) ∨
      (c = .illegalOperand ∧ w.extractLsb' 6 2 = 0 ∧ (w.extractLsb' 0 6).toNat ∈ [2, 3, 4, 8, 9] ∧ w.getLsbD 15 = true) ∨
      (c = .storeToLiteral ∧ w.extractLsb' 6 2 = 0 ∧ (w.extractLsb' 0 6).toNat = 4 ∧ w.getLsbD 15 = false ∧
        w.getLsbD 23 = true)

/-- Words of 95_test_vectors decode to the instructions they stand for: those of V1 and V3 to V9, and the MUL of P3. That V1's word
0xFFFFFF10, for which the decoder of R50 answers UNDEFINED_OPCODE, decodes to LOAD1, whose meaning raises that fault, is the model's
split, notes/assumptions/7. -/
def Obligations.SampleWordsDecode : Prop :=
  decodeTableWord 32 0x00000000 = some .noop ∧
  decodeTableWord 32 0x00000001 = some .endOp ∧
  decodeTableWord 32 0x00FF7F02 = some (.move 127 (.imm 127)) ∧
  decodeTableWord 32 0x7FFF0503 = some (.load 5 .literal 16383) ∧
  decodeTableWord 32 0x02010304 = some (.store 3 130) ∧
  decodeTableWord 32 0x84010005 = some (.cmp (.reg 1) (.imm 4)) ∧
  decodeTableWord 32 0x01000006 = some (.bne 1) ∧
  decodeTableWord 32 0x48010007 = some (.jmp 200) ∧
  decodeTableWord 32 0x81010008 = some (.add 0 (.reg 1) (.imm 1)) ∧
  decodeTableWord 32 0x02000109 = some (.mul 1 (.reg 0) (.reg 2)) ∧
  decodeTableWord 32 0xFFFFFF10 = some (.load1 0xFF 0xFF 0xFF) ∧
  decodeTableWord 32 0x00000011 = none

/-- The word view is little-endian, and the four bytes come back from it (R39). -/
def Obligations.WordViewIsLittleEndian : Prop :=
  ∀ b : Insn,
    b.word.toNat = b.opcode.toNat + 2 ^ 8 * b.dest.toNat + 2 ^ 16 * b.src1.toNat + 2 ^ 24 * b.src2.toNat ∧
    Insn.ofWord b.word = b

/-- Operand bytes and address pairs: mode*128 + index, hi*128 + lo, and both come back (R42, R46; W1, W2). -/
def Obligations.OperandBytesAndPairsRoundTrip : Prop :=
  (∀ (m : BitVec 1) (i : BitVec 7),
    (encodeOperand m i).toNat = m.toNat * 128 + i.toNat ∧ decodeMode (encodeOperand m i) = m ∧
    decodeIndex (encodeOperand m i) = i) ∧
  (∀ hi lo : BitVec 7,
    (packAddress hi lo).toNat = hi.toNat * 128 + lo.toNat ∧ unpackAddress (packAddress hi lo) = (hi, lo)) ∧
  ∀ x : Byte, (decodeMode x).toNat = x.toNat / 128 ∧ (decodeIndex x).toNat = x.toNat % 128

/-! ### One step -/

/-- When the engine fetches b next and b decodes to i, the step is i's meaning on the state after the fetch (R64, R67). -/
def Obligations.StepRunsTheDecodedInstruction : Prop :=
  ∀ (s : State) (b : Insn) (i : Instr), s.FetchesNext b → decode b = .ok i → step s = exec i (afterFetch s b)

/-- When b does not decode, the step takes the fault entry: cause 1, 2 or 3, FAULT_PC the index of b, FAULT_INSN its word, and
only the fetch has happened besides (R64, R97, R99). -/
def Obligations.StepTakesTheDecodeFault : Prop :=
  ∀ (s : State) (b : Insn) (c : FaultCause), s.FetchesNext b → decode b = .error c →
    ∃ t, step s = .next t ∧ t.pcCur = s.pc ∧
      ((c = .undefinedOpcode ∧ FaultEntered 1 s.pc b.word (afterFetch s b) t) ∨
       (c = .illegalOperand ∧ FaultEntered 2 s.pc b.word (afterFetch s b) t) ∨
       (c = .storeToLiteral ∧ FaultEntered 3 s.pc b.word (afterFetch s b) t))

/-- At the step ceiling the step raises STEP_LIMIT, whatever pc is; nothing is fetched, pc_cur is pc (R65). Below the ceiling no
engine step takes STEPS past it. -/
def Obligations.StepCeilingFaults : Prop :=
  (∀ s : State, s.runState = .running → s.engineTurn = true → s.steps = Config.maxSteps →
    ∃ t, step s = .next t ∧ t.pcCur = s.pc ∧ FaultEntered 7 s.pc 0 s.ticked t) ∧
  ∀ s t : State, s.engineTurn = true → s.steps ≤ Config.maxSteps → step s = .next t → t.steps ≤ Config.maxSteps

/-- Below the ceiling, with pc at or past PROG_LEN, the step raises PC_OUT_OF_RANGE; nothing is fetched, pc_cur is pc (R66). -/
def Obligations.PcOutOfRangeFaults : Prop :=
  ∀ s : State, s.runState = .running → s.engineTurn = true → s.steps ≠ Config.maxSteps → s.imem.length ≤ s.pc.toNat →
    ∃ t, step s = .next t ∧ t.pcCur = s.pc ∧ FaultEntered 6 s.pc 0 s.ticked t

/-- While IDLE every piece of state keeps its value, and of the host calls only a process call that R62 accepts starts a block (R108).
No argument or result of a call is held between calls (R27): a step leaves output vectors only where it ends a block, and the next step
holds them no longer. That calls come from a list with delays is the model's own, notes/assumptions/9, and so is the one state that
holds the result, notes/assumptions/11. -/
def Obligations.IdleKeepsStateUntilProcess : Prop :=
  (∀ s : State, s.runState = .idle → s.engineTurn = true → step s = .next s.ticked) ∧
  (∀ s t : State, s.runState = .idle → step s = .next t → t.runState = .running →
    ∃ inputs nout rest, s.hostCalls = ⟨0, .process inputs nout⟩ :: rest ∧ s.allocated = true ∧
      (s.imem ≠ [] ∨ s.pending ≠ none) ∧ 1 ≤ nout ∧ nout ≤ 128 ∧ inputs.length ≤ 128) ∧
  (∀ s t : State, step s = .next t → t.outputs ≠ [] → s.runState = .running ∧ t.runState = .idle) ∧
  ∀ s t : State, (s.runState = .idle → s.nout = 0) → step s = .next t → t.runState = .idle → t.nout = 0

/-! ### Instructions -/

/-- NOOP: nothing but the fetch's effects, for every word with opcode byte 0 (R82; R51 class 6). -/
def Obligations.NoopOnlyAdvances : Prop :=
  (∀ s : State, exec .noop s = .next s) ∧
  ∀ (s : State) (b : Insn), s.FetchesNext b → b.opcode = 0 →
    ∃ t, step s = .next t ∧ t.pc = s.pc + 1 ∧ t.steps = s.steps + 1 ∧ (∀ r, t.readReg r = s.readReg r) ∧
      (∀ a, t.arena.read a = s.arena.read a) ∧
      t = { s with
        pc := t.pc, pcCur := t.pcCur, insnWord := t.insnWord, steps := t.steps, hostCalls := t.hostCalls, outputs := [] }

/-- END: the output stage writes output i from register i, STATUS is OK, the block is over and NOUT no longer held; nothing else changes
(R72, R83, R27). That NOUT and the outputs are fields of State is the model's form, notes/assumptions/11.
That outputs past register 127 do not exist, in states with NOUT above 128, is the model's choice, notes/assumptions/15. -/
def Obligations.EndCopiesTheOutputs : Prop :=
  ∀ s : State, ∃ t, exec .endOp s = .next t ∧
    t.outputs.length = min s.nout 128 ∧
    (∀ r : RegIdx, r.toNat < s.nout → t.outputs[r.toNat]? = some (s.readReg r)) ∧
    t.status = 0 ∧ t.runState = .idle ∧
    (∀ r, t.readReg r = s.readReg r) ∧ (∀ a, t.arena.read a = s.arena.read a) ∧
    t = { s with nout := 0, outputs := t.outputs, status := t.status, runState := t.runState }

/-- MOVE: every lane of Rd becomes the operand's lane, a register copied or an immediate broadcast, with no fault; nothing else
changes (R74, R69). -/
def Obligations.MoveCopiesItsOperand : Prop :=
  ∀ (rd : RegIdx) (src : Operand) (s : State), ∃ t, exec (.move rd src) s = .next t ∧
    (∀ i : Fin Config.vlen, (t.readReg rd)[i] = operandLane src s i) ∧ OnlyRegister rd s t

/-- LOAD in range: the arena vector, or the literal in every lane; nothing but Rd changes (R75, R70). -/
def Obligations.LoadReadsArenaOrLiteral : Prop :=
  (∀ (rd : RegIdx) (addr : Addr) (s : State), addr.toNat < s.stateVecs.toNat + s.scratchVecs.toNat →
    ∃ t, exec (.load rd .arena addr) s = .next t ∧ t.readReg rd = s.arena.read addr.toNat ∧ OnlyRegister rd s t) ∧
  ∀ (rd : RegIdx) (addr : Addr) (s : State) (x : B32), s.lit[addr.toNat]? = some x →
    ∃ t, exec (.load rd .literal addr) s = .next t ∧ (∀ i : Fin Config.vlen, (t.readReg rd)[i] = x) ∧ OnlyRegister rd s t

/-- LOAD out of range: ARENA_OUT_OF_RANGE at or past S + K, LITERAL_OUT_OF_RANGE at or past LIT_LEN, and no register written
(R75, R70, R99). -/
def Obligations.LoadOutOfRangeFaults : Prop :=
  (∀ (rd : RegIdx) (addr : Addr) (s : State), s.stateVecs.toNat + s.scratchVecs.toNat ≤ addr.toNat →
    ∃ t, exec (.load rd .arena addr) s = .next t ∧ FaultEntered 4 s.pcCur s.insnWord s t ∧ t.pcCur = s.pcCur) ∧
  ∀ (rd : RegIdx) (addr : Addr) (s : State), s.lit.length ≤ addr.toNat →
    ∃ t, exec (.load rd .literal addr) s = .next t ∧ FaultEntered 5 s.pcCur s.insnWord s t ∧ t.pcCur = s.pcCur

/-- STORE in range writes the register into the arena at addr, keeps every other vector and the canonical form (R76). The
canonical form is an invariant of the model: StepKeepsInv. -/
def Obligations.StoreWritesOneArenaVector : Prop :=
  ∀ (rs : RegIdx) (addr : Addr) (s : State), addr.toNat < s.stateVecs.toNat + s.scratchVecs.toNat → s.arena.wf = true →
    ∃ t, exec (.store rs addr) s = .next t ∧ t.arena.read addr.toNat = s.readReg rs ∧ t.arena.wf = true ∧
      OnlyArena addr.toNat s t

/-- The destination of a STORE: at or past S + K it faults ARENA_OUT_OF_RANGE, a LITERAL pair faults STORE_TO_LITERAL after the
fetch and before any write, and otherwise the vector at addr is the one written, with the register's (R71). The canonical form, an
invariant of the model, is StepKeepsInv's. -/
def Obligations.StoreDestinationIsChecked : Prop :=
  (∀ (rs : RegIdx) (addr : Addr) (s : State), s.stateVecs.toNat + s.scratchVecs.toNat ≤ addr.toNat →
    ∃ t, exec (.store rs addr) s = .next t ∧ FaultEntered 4 s.pcCur s.insnWord s t ∧ t.pcCur = s.pcCur) ∧
  (∀ (s : State) (w : BitVec 32), s.FetchesNext (Insn.ofWord w) → w.extractLsb' 0 8 = 4 → w.getLsbD 15 = false →
    w.getLsbD 23 = true →
    ∃ t, step s = .next t ∧ FaultEntered 3 s.pc w (afterFetch s (Insn.ofWord w)) t ∧ t.pcCur = s.pc) ∧
  ∀ (rs : RegIdx) (addr : Addr) (s : State), addr.toNat < s.stateVecs.toNat + s.scratchVecs.toNat →
    ∃ t, exec (.store rs addr) s = .next t ∧ (s.arena.wf = true → t.arena.read addr.toNat = s.readReg rs) ∧
      OnlyArena addr.toNat s t

/-- CMP: EQ is 1 exactly when every lane pair is quietly equal; nothing else changes (R84). -/
def Obligations.CmpSetsEqWhenAllLanesEqual : Prop :=
  ∀ (a b : Operand) (s : State), ∃ t, exec (.cmp a b) s = .next t ∧
    (t.eq = true ↔
      ∀ i : Fin Config.vlen, B32.quietEq Config.ftz (operandLane a s i) (operandLane b s i) = true) ∧
    (∀ r, t.readReg r = s.readReg r) ∧ (∀ m, t.arena.read m = s.arena.read m) ∧ t = { s with eq := t.eq }

/-- BNE: pc becomes the target when EQ is 0 and stays as the fetch left it when EQ is 1; nothing else changes (R85, R47). -/
def Obligations.BneBranchesWhenEqIsZero : Prop :=
  ∀ (target : Addr) (s : State), ∃ t, exec (.bne target) s = .next t ∧
    (s.eq = false → t.pc.toNat = target.toNat) ∧ (s.eq = true → t.pc = s.pc) ∧
    (∀ r, t.readReg r = s.readReg r) ∧ (∀ m, t.arena.read m = s.arena.read m) ∧ t = { s with pc := t.pc }

/-- JMP: pc becomes the target; nothing else changes (R86, R47). -/
def Obligations.JmpAlwaysBranches : Prop :=
  ∀ (target : Addr) (s : State), ∃ t, exec (.jmp target) s = .next t ∧ t.pc.toNat = target.toNat ∧
    (∀ r, t.readReg r = s.readReg r) ∧ (∀ m, t.arena.read m = s.arena.read m) ∧ t = { s with pc := t.pc }

/-- ADD: every lane of Rd becomes FADD of the operands' lanes as they were before, Rd equal to a source included; EQ and all else
are unchanged (R80, R10). FADD is the platform's function or the default: notes/assumptions/2. -/
def Obligations.AddSumsLanewise : Prop :=
  ∀ (rd : RegIdx) (a b : Operand) (s : State), ∃ t, exec (.add rd a b) s = .next t ∧
    (∀ i : Fin Config.vlen, (t.readReg rd)[i] = fadd (operandLane a s i) (operandLane b s i)) ∧ OnlyRegister rd s t

/-- MUL: every lane of Rd becomes FMUL of the operands' lanes as they were before; all else is unchanged (R81, R10). FMUL is the
platform's function or the default: notes/assumptions/2. -/
def Obligations.MulMultipliesLanewise : Prop :=
  ∀ (rd : RegIdx) (a b : Operand) (s : State), ∃ t, exec (.mul rd a b) s = .next t ∧
    (∀ i : Fin Config.vlen, (t.readReg rd)[i] = fmul (operandLane a s i) (operandLane b s i)) ∧ OnlyRegister rd s t

/-- The reserved operations, whatever their operand bytes, raise UNDEFINED_OPCODE and write nothing themselves (R88 to R95). -/
def Obligations.ReservedOperationsFault : Prop :=
  ∀ (d x y : Byte) (s : State) (i : Instr),
    i ∈ [.shift d x y, .interp d x y, .svf d x y, .test1 d x y, .test2 d x y, .move1 d x y, .load1 d x y] →
    ∃ t, exec i s = .next t ∧ FaultEntered 1 s.pcCur s.insnWord s t ∧ t.pcCur = s.pcCur ∧ (∀ r, t.readReg r = s.readReg r) ∧
      (∀ m, t.arena.read m = s.arena.read m) ∧ t.eq = s.eq

/-! ### Faults and whole-machine rules -/

/-- Faults are precise: an engine step of a running block that ends it with STATUS = FAULT has written no register, arena
vector or EQ, and has moved pc and STEPS by the fetch at most (R99). -/
def Obligations.FaultsArePrecise : Prop :=
  ∀ s t : State, s.runState = .running → s.engineTurn = true → step s = .next t → t.runState = .idle → t.status = 1 →
    t.regs = s.regs ∧ t.arena = s.arena ∧ t.eq = s.eq ∧ t.outputs = List.replicate s.nout zeroVec ∧
    ((t.pc = s.pc ∧ t.steps = s.steps ∧ t.faultInsn = 0) ∨ (t.pc = s.pc + 1 ∧ t.steps = s.steps + 1)) ∧
    t.faultPc = s.pc ∧ t.imem = s.imem ∧ t.lit = s.lit ∧ t.stateVecs = s.stateVecs ∧ t.scratchVecs = s.scratchVecs ∧
    t.pending = s.pending

/-- No state is stuck: every step, from every state, answers a next state (93_implementation_defined, the end of Part 1; that a
fault is a next state is the model's form of R99, notes/assumptions/8). -/
def Obligations.EveryStepAnswersNext : Prop := ∀ s : State, ∃ t, step s = .next t

/-- Every step keeps the machine invariant, from every state that has it. -/
def Obligations.StepKeepsInv : Prop := ∀ s t : State, s.Inv → step s = .next t → t.Inv

/-- The machine invariant holds at power-on. The values of the registers there are the model's choice, notes/assumptions/5; the
invariant does not speak of them. -/
def Obligations.ResetHasInv : Prop := State.reset.Inv ∧ State.reset.ActiveAccepted

/-- Every step keeps the active program one that validation accepts under the capacity in force (R112, R114, R110). -/
def Obligations.StepKeepsTheActiveProgramAccepted : Prop :=
  ∀ s t : State, s.Inv → s.ActiveAccepted → step s = .next t → t.ActiveAccepted

/-- A step of an accepted program raises no fault but UNDEFINED_OPCODE for an id 10 to 16, PC_OUT_OF_RANGE and STEP_LIMIT, and a taken
branch of it cannot raise PC_OUT_OF_RANGE: after a JMP, or a BNE with EQ = 0, pc is the target and inside the program, so that the next
engine step does not raise that fault (R112). -/
def Obligations.AcceptedProgramsFaultOnlyThreeWays : Prop :=
  (∀ s t : State, s.Inv → s.ActiveAccepted → s.runState = .running → s.engineTurn = true → step s = .next t →
    t.runState = .running ∨ (t.status = 0 ∧ t.faultCause = s.faultCause) ∨
    (t.status = 1 ∧
      ((t.faultCause = 1 ∧ t.faultInsn.extractLsb' 6 2 = 0 ∧ 10 ≤ (t.faultInsn.extractLsb' 0 6).toNat ∧
          (t.faultInsn.extractLsb' 0 6).toNat ≤ 16) ∨
        t.faultCause = 6 ∨ t.faultCause = 7))) ∧
  ∀ (s : State) (b : Insn) (target : Addr), s.Inv → s.ActiveAccepted → s.FetchesNext b →
    (decode b = .ok (.jmp target) ∨ (decode b = .ok (.bne target) ∧ s.eq = false)) →
    ∃ t, step s = .next t ∧ t.runState = .running ∧ t.pc.toNat = target.toNat ∧ t.pc.toNat < t.imem.length ∧
      ∀ u, t.engineTurn = true → step t = .next u → u.runState = .idle → u.status = 1 → u.faultCause ≠ 6

/-- A running block with no host call to come ends, with OK or FAULT, with all its outputs, within the steps left under the
ceiling and one check more, at which nothing is fetched (R73). That the last check is a step of its own is the model's granularity,
notes/assumptions/10. -/
def Obligations.BlockEndsWithinTheCeiling : Prop :=
  ∀ s : State, s.Inv → s.runState = .running → s.hostCalls = [] →
    ∃ n t, n ≤ Config.maxSteps - s.steps + 1 ∧ Host.Core.run Sys2Proof.core n s = .next t ∧ t.runState = .idle ∧
      (t.status = 0 ∨ t.status = 1) ∧ t.outputs.length = s.nout ∧ t.steps ≤ Config.maxSteps

/-- An accepted process call returns: from IDLE, allocated, with a program active or pending and counts in range, the block is
over within MAX_STEPS + 2 steps (the call, the fetches, one last check), with OK or FAULT and NOUT output vectors (R61, R73).
That the call and the last check are steps, and that calls come from a list, is the model's own, notes/assumptions/10 and 9. -/
def Obligations.AcceptedProcessReturns : Prop :=
  ∀ (s : State) (inputs : List Vec) (nout : Nat), s.Inv → s.runState = .idle → s.allocated = true →
    (s.imem ≠ [] ∨ s.pending ≠ none) → 1 ≤ nout → nout ≤ 128 → inputs.length ≤ 128 →
    s.hostCalls = [⟨0, .process inputs nout⟩] →
    ∃ n t, n ≤ Config.maxSteps + 2 ∧ Host.Core.run Sys2Proof.core n s = .next t ∧ t.runState = .idle ∧
      (t.status = 0 ∨ t.status = 1) ∧ t.outputs.length = nout ∧ t.hostCalls = []

/-- CMP is the only instruction that writes EQ (R84, R15). -/
def Obligations.OnlyCmpWritesEq : Prop :=
  ∀ (i : Instr) (s t : State), exec i s = .next t → t.eq ≠ s.eq → ∃ a b, i = .cmp a b

/-- BNE and JMP are the only instructions that write pc other than by the fetch's increment (R87). -/
def Obligations.OnlyBranchesWritePc : Prop :=
  ∀ (i : Instr) (s t : State), exec i s = .next t → t.pc ≠ s.pc → ∃ target, i = .bne target ∨ i = .jmp target

/-- STORE is the only instruction that writes the arena, and MOVE, LOAD, ADD and MUL are the only ones that write a register,
their Rd (R12, R18). -/
def Obligations.OnlyNamedInstructionsWriteData : Prop :=
  ∀ (i : Instr) (s t : State), exec i s = .next t →
    (t.arena ≠ s.arena → ∃ rs addr, i = .store rs addr) ∧
    ∀ r, t.readReg r ≠ s.readReg r →
      (∃ src, i = .move r src) ∨ (∃ space addr, i = .load r space addr) ∨ (∃ a b, i = .add r a b) ∨ ∃ a b, i = .mul r a b

/-- No instruction changes the program, the pending buffer, the allocation or the results of the host's calls, and none writes an
arena vector at or past S + K (R36, R103, R18). -/
def Obligations.InstructionsStayInTheirReach : Prop :=
  ∀ (i : Instr) (s t : State), exec i s = .next t →
    t.imem = s.imem ∧ t.lit = s.lit ∧ t.stateVecs = s.stateVecs ∧ t.scratchVecs = s.scratchVecs ∧ t.pending = s.pending ∧
    t.allocated = s.allocated ∧ t.arenaCap = s.arenaCap ∧ t.loadStatus = s.loadStatus ∧ t.allocStatus = s.allocStatus ∧
    t.hostCalls = s.hostCalls ∧
    ∀ a, s.stateVecs.toNat + s.scratchVecs.toNat ≤ a → t.arena.read a = s.arena.read a

/-- What lies at or past S + K in the arena cannot be learned: two states that differ only there step to states that differ only
there (R18). -/
def Obligations.UnreachableArenaIsNotObserved : Prop :=
  ∀ s u t : State, s.engineTurn = true → s.arena.wf = true → u.arena.wf = true → u = { s with arena := u.arena } →
    (∀ a, a < s.stateVecs.toNat + s.scratchVecs.toNat → u.arena.read a = s.arena.read a) → step s = .next t →
    ∃ v, step u = .next v ∧ v = { t with arena := v.arena } ∧
      ∀ a, a < s.stateVecs.toNat + s.scratchVecs.toNat → v.arena.read a = t.arena.read a

/-! ### Host transactions -/

/-- allocateMemory in its four outcomes (R110). That a register file is held before the first allocation, and that the addresses past
the new capacity read ZERO_VEC too, is the model's form, notes/assumptions/5 and 14. -/
def Obligations.AllocateMemoryOutcomes : Prop :=
  ∀ (sReq kReq : Nat) (s : State),
    (s.runState = .running → allocateMemory sReq kReq s = { s with allocStatus := 2 }) ∧
    (s.runState = .idle → Config.arenaMax < sReq + kReq → allocateMemory sReq kReq s = { s with allocStatus := 1 }) ∧
    (s.runState = .idle → sReq + kReq ≤ Config.arenaMax → s.allocated = true → sReq + kReq = s.arenaCap.toNat →
      allocateMemory sReq kReq s = { s with allocStatus := 0 }) ∧
    (s.runState = .idle → sReq + kReq ≤ Config.arenaMax → (s.allocated = false ∨ sReq + kReq ≠ s.arenaCap.toNat) →
      ∃ t, allocateMemory sReq kReq s = t ∧ t.arenaCap.toNat = sReq + kReq ∧ t.allocated = true ∧
        (∀ r, t.readReg r = zeroVec) ∧ (∀ a, t.arena.read a = zeroVec) ∧ t.imem = [] ∧ t.lit = [] ∧ t.stateVecs = 0 ∧
        t.scratchVecs = 0 ∧ t.pending = none ∧ t.allocStatus = 0 ∧
        t = { s with
          arenaCap := t.arenaCap, allocated := t.allocated, regs := t.regs, arena := t.arena, imem := t.imem,
          lit := t.lit, stateVecs := t.stateVecs, scratchVecs := t.scratchVecs, pending := t.pending,
          allocStatus := t.allocStatus })

/-- allocateMemory is idempotent: the same call again changes nothing (R110). -/
def Obligations.AllocateMemoryIsIdempotent : Prop :=
  ∀ (sReq kReq : Nat) (s : State),
    allocateMemory sReq kReq (allocateMemory sReq kReq s) = allocateMemory sReq kReq s

/-- setProgram: an accepted program fills the pending buffer with LOAD_STATUS 0; a rejected one leaves it, with a nonzero code;
nothing else changes, running or not (R111). -/
def Obligations.SetProgramFillsThePendingBuffer : Prop :=
  ∀ (p : Program) (s : State), ∃ t, setProgram p s = t ∧
    t = { s with loadStatus := t.loadStatus, pending := t.pending } ∧
    (validate s.allocated s.arenaCap.toNat p = .accepted → t.loadStatus = 0 ∧ t.pending = some p) ∧
    (validate s.allocated s.arenaCap.toNat p ≠ .accepted →
      t.loadStatus = loadCode (validate s.allocated s.arenaCap.toNat p) ∧ t.loadStatus ≠ 0 ∧ t.pending = s.pending)

/-- What validation accepts: an allocated block, sizes within their limits, every instruction the encoding of a decoded
instruction that is well formed in the program, and an END among them; and which code setProgram gives a program: k, from 1 to 11,
exactly when check k is the first of the table's that fails, and 0, with the program in the pending buffer, exactly when none does
(R112, R113). That words of ids 10 to 16 decode is the model's split, notes/assumptions/7. -/
def Obligations.ValidationAcceptsExactlyWellFormedPrograms : Prop :=
  (∀ (allocated : Bool) (cap : Nat) (p : Program),
    validate allocated cap p = .accepted ↔
      allocated = true ∧ p.insns.length ≤ Config.imemDepth ∧ p.lit.length ≤ 16384 ∧ p.stateVecs + p.scratchVecs ≤ cap ∧
      (∀ b ∈ p.insns, ∃ i, decode b = .ok i ∧ encode i = b ∧ i.wellFormed p.bounds = true) ∧ encode .endOp ∈ p.insns) ∧
  ∀ (p : Program) (s : State), ∃ t, setProgram p s = t ∧
    (∀ k, 1 ≤ k → k ≤ 11 →
      (t.loadStatus.toNat = k ↔
        LoadCheckFails s.allocated s.arenaCap.toNat p k ∧
        ∀ j, 1 ≤ j → j < k → ¬ LoadCheckFails s.allocated s.arenaCap.toNat p j)) ∧
    (t.loadStatus = 0 ↔ ∀ j, 1 ≤ j → j ≤ 11 → ¬ LoadCheckFails s.allocated s.arenaCap.toNat p j) ∧
    (t.loadStatus = 0 → t.pending = some p) ∧ (t.loadStatus ≠ 0 → t.pending = s.pending)

/-- A refused process call changes only STATUS: NOT_READY while running, unallocated or without a program, then BAD_IO for the
counts, in this order (R62). -/
def Obligations.ProcessRefusals : Prop :=
  ∀ (inputs : List Vec) (nout : Nat) (s : State),
    ((s.runState = .running ∨ s.allocated = false ∨ (s.imem = [] ∧ s.pending = none)) →
      process inputs nout s = { s with status := 2 }) ∧
    (s.runState = .idle → s.allocated = true → (s.imem ≠ [] ∨ s.pending ≠ none) →
      (nout = 0 ∨ 128 < nout ∨ 128 < inputs.length) → process inputs nout s = { s with status := 3 })

/-- The registers after an accepted process call: register i is input i, bit for bit, and the registers from NIN on keep their
contents (R63). -/
def Obligations.InputStageFillsLowRegisters : Prop :=
  ∀ (inputs : List Vec) (nout : Nat) (s : State), s.runState = .idle → s.allocated = true →
    (s.imem ≠ [] ∨ s.pending ≠ none) → 1 ≤ nout → nout ≤ 128 → inputs.length ≤ 128 →
    ∃ t, process inputs nout s = t ∧
      (∀ (r : RegIdx) (v : Vec), inputs[r.toNat]? = some v → t.readReg r = v) ∧
      ∀ r : RegIdx, inputs.length ≤ r.toNat → t.readReg r = s.readReg r

/-- Installation: with a full pending buffer, an accepted process call makes its program the active one and empties the buffer;
with an empty one the active program stays. No register past the inputs and no state vector is written (R114). -/
def Obligations.PendingProgramIsInstalledAtBlockStart : Prop :=
  ∀ (inputs : List Vec) (nout : Nat) (s : State), s.Inv → s.runState = .idle → s.allocated = true →
    (s.imem ≠ [] ∨ s.pending ≠ none) → 1 ≤ nout → nout ≤ 128 → inputs.length ≤ 128 →
    ∃ t, process inputs nout s = t ∧ t.pending = none ∧ t.programValid = true ∧
      (∀ p, s.pending = some p → t.activeProgram = p) ∧ (s.pending = none → t.activeProgram = s.activeProgram) ∧
      (∀ r : RegIdx, inputs.length ≤ r.toNat → t.readReg r = s.readReg r) ∧
      ∀ a, a < t.stateVecs.toNat → t.arena.read a = s.arena.read a

/-- Block start: pc, STEPS and EQ are 0, the run state is RUNNING, scratch vectors take free contents, and state vectors, the
vectors past S + K and every status register but the ENGINE_FLAGS and program mirrors keep theirs (R115). The free contents
come from Config.scratchContent: notes/assumptions/4. The running call's NOUT is held, and no output vector: fields of the model's own,
notes/assumptions/11. -/
def Obligations.BlockStartResets : Prop :=
  ∀ (inputs : List Vec) (nout : Nat) (s : State), s.Inv → s.runState = .idle → s.allocated = true →
    (s.imem ≠ [] ∨ s.pending ≠ none) → 1 ≤ nout → nout ≤ 128 → inputs.length ≤ 128 →
    ∃ t, process inputs nout s = t ∧ t.pc = 0 ∧ t.steps = 0 ∧ t.eq = false ∧ t.runState = .running ∧
      (∀ a, t.stateVecs.toNat ≤ a → a < t.stateVecs.toNat + t.scratchVecs.toNat →
        t.arena.read a = Config.scratchContent s.blockNo a) ∧
      (∀ a, a < t.stateVecs.toNat → t.arena.read a = s.arena.read a) ∧
      (∀ a, t.stateVecs.toNat + t.scratchVecs.toNat ≤ a → t.arena.read a = s.arena.read a) ∧
      t.status = s.status ∧ t.faultCause = s.faultCause ∧ t.faultPc = s.faultPc ∧ t.faultInsn = s.faultInsn ∧
      t.loadStatus = s.loadStatus ∧ t.allocStatus = s.allocStatus ∧ t.arenaCap = s.arenaCap ∧ t.allocated = s.allocated ∧
      t.nout = nout ∧ t.outputs = []

/-- While a block runs, a host call that is due changes no state the block can see: allocateMemory is BUSY, process is NOT_READY,
setProgram touches only LOAD_STATUS and the pending buffer (R37, R36). A running block holds no output vectors (R27; in states of
Inv there are none to give up). -/
def Obligations.HostCallsDoNotDisturbARunningBlock : Prop :=
  ∀ (s t : State) (c : HostCall) (rest : List HostEvent), s.runState = .running → s.hostCalls = ⟨0, c⟩ :: rest →
    step s = .next t →
    t = { s with
      hostCalls := rest, outputs := [], allocStatus := t.allocStatus, status := t.status, loadStatus := t.loadStatus,
      pending := t.pending } ∧
    (∀ a k, c = .allocateMemory a k → t = { s with hostCalls := rest, outputs := [], allocStatus := 2 }) ∧
    (∀ inputs nout, c = .process inputs nout → t = { s with hostCalls := rest, outputs := [], status := 2 }) ∧
    ∀ p, c = .setProgram p →
      t = setProgram p { s with hostCalls := rest, outputs := [] } ∧
      t = { s with hostCalls := rest, outputs := [], loadStatus := t.loadStatus, pending := t.pending }

/-- The status registers: each reads its field with unlisted bits 0, the codes are those ever written, the ENGINE_FLAGS
bits are ALLOCATED, PROGRAM_VALID, PENDING and BUSY, and the lengths and counts are those of the active program (R26). -/
def Obligations.StatusRegisterLayout : Prop :=
  ∀ s : State, s.Inv →
    (readStatus 0 s).toNat < 2 ^ 2 ∧ (readStatus 1 s).toNat ≤ 7 ∧ (readStatus 2 s).toNat < 2 ^ 15 ∧
    readStatus 3 s = s.faultInsn ∧ (readStatus 4 s).toNat ≤ 11 ∧ (readStatus 5 s).toNat ≤ 2 ∧
    (readStatus 0 s).toNat = s.status.toNat ∧ (readStatus 1 s).toNat = s.faultCause.toNat ∧
    (readStatus 2 s).toNat = s.faultPc.toNat ∧ (readStatus 4 s).toNat = s.loadStatus.toNat ∧
    (readStatus 5 s).toNat = s.allocStatus.toNat ∧ (readStatus 6 s).toNat < 2 ^ 4 ∧
    ((readStatus 6 s).getLsbD 0 = s.allocated) ∧ ((readStatus 6 s).getLsbD 1 = true ↔ s.imem ≠ []) ∧
    ((readStatus 6 s).getLsbD 2 = true ↔ s.pending ≠ none) ∧ ((readStatus 6 s).getLsbD 3 = true ↔ s.runState = .running) ∧
    (readStatus 7 s).toNat = s.arenaCap.toNat ∧ (readStatus 8 s).toNat = s.imem.length ∧
    (readStatus 9 s).toNat = s.lit.length ∧ (readStatus 10 s).toNat = s.stateVecs.toNat ∧
    (readStatus 11 s).toNat = s.scratchVecs.toNat

/-- At power-on the elements of the table of R109 hold its values (the register file apart, notes/assumptions/5), every status
register reads 0, setProgram answers NOT_ALLOCATED and process NOT_READY, with nothing else changed, and an allocation within
ARENA_MAX succeeds. -/
def Obligations.PowerOnAcceptsOnlyAllocation : Prop :=
  (State.reset.pc = 0 ∧ State.reset.eq = false ∧ State.reset.steps = 0 ∧ State.reset.arenaCap = 0 ∧
    State.reset.imem = [] ∧ State.reset.lit = [] ∧ State.reset.stateVecs = 0 ∧ State.reset.scratchVecs = 0 ∧
    State.reset.pending = none ∧ State.reset.runState = .idle ∧ State.reset.allocated = false) ∧
  (∀ n, readStatus n State.reset = 0) ∧
  (∀ p, setProgram p State.reset = { State.reset with loadStatus := 1 }) ∧
  (∀ inputs nout, process inputs nout State.reset = { State.reset with status := 2 }) ∧
  ∀ sReq kReq, sReq + kReq ≤ Config.arenaMax → (allocateMemory sReq kReq State.reset).allocated = true

/-! ### Lane arithmetic -/

/-- The immediate constant of index n is the binary32 equal to n, exact, never negative; with the four values the rule lists
(R45). -/
def Obligations.ImmediatesAreExact : Prop :=
  (∀ n : BitVec 7, (immValue n).isFinite = true ∧ (immValue n).isNeg = false ∧
    (immValue n).value = n.toNat * 2 ^ 149) ∧
  immValue 0 = 0x00000000 ∧ immValue 1 = 0x3F800000 ∧ immValue 5 = 0x40A00000 ∧ immValue 127 = 0x42FE0000

/-- The rounding is roundTiesToEven, and so are the default sum and product of finite operands and a decimal literal, each from its
exact value: infinity from the midpoint past the largest finite value on; below it no finite pattern is nearer, and a tie goes to the
even one. An exact sum of 0 is +0 unless both operands are negative. With FTZ the operands are flushed before and the result after,
which for the result is the model's choice at one boundary, notes/assumptions/17. FADD and FMUL are these defaults or what the
platform chooses, notes/assumptions/2 (R78, R54; IEEE 754, marked general knowledge by the spec, 93 G2 and G4). That a decimal
literal too large for binary32 becomes an infinity, and that one that is or rounds to zero keeps its sign, neither of which R54 says,
is the model's choice, notes/assumptions/18. -/
def Obligations.RoundingIsNearestTiesToEven : Prop :=
  (∀ n d : Nat, 0 < d →
    (B32.roundUnits n d = B32.infBits ↔ (2 ^ 25 - 1) * 2 ^ 252 * d ≤ n) ∧
    B32.roundUnits n d ≤ B32.infBits ∧
    (B32.roundUnits n d < B32.infBits → ∀ m, m < B32.infBits →
      distance n (d * unitsOfBits (B32.roundUnits n d)) ≤ distance n (d * unitsOfBits m) ∧
      (distance n (d * unitsOfBits (B32.roundUnits n d)) = distance n (d * unitsOfBits m) →
        m ≠ B32.roundUnits n d → B32.roundUnits n d % 2 = 0))) ∧
  (∀ nan x y : B32, x.isFinite = true → y.isFinite = true → x.value + y.value ≠ 0 →
    RoundedToEven (decide (x.value + y.value < 0)) (x.value + y.value).natAbs 1 (B32.addRne false nan x y)) ∧
  (∀ nan x y : B32, x.isFinite = true → y.isFinite = true → x.value + y.value = 0 →
    B32.addRne false nan x y = if x.isNeg && y.isNeg then 0x80000000 else 0x00000000) ∧
  (∀ nan x y : B32, x.isFinite = true → y.isFinite = true →
    RoundedToEven (x.isNeg != y.isNeg) (x.units * y.units) (2 ^ 149) (B32.mulRne false nan x y)) ∧
  (∀ (neg : Bool) (digits up down : Nat),
    RoundedToEven neg (digits * 10 ^ up * 2 ^ 149) (10 ^ down) (B32.ofDecimal neg digits up down)) ∧
  (∀ nan x y : B32, nan.isNaN = true →
    B32.addRne true nan x y = (B32.addRne false nan (x.flush true) (y.flush true)).flush true ∧
    B32.mulRne true nan x y = (B32.mulRne false nan (x.flush true) (y.flush true)).flush true) ∧
  (∀ x y : B32,
    faddDefault x y = B32.addRne Config.ftz (Config.nanResult .add x y) x y ∧
    fmulDefault x y = B32.mulRne Config.ftz (Config.nanResult .mul x y) x y) ∧
  ((Config.faddChoice = none ∧ fadd = faddDefault) ∨ Config.faddChoice = some fadd) ∧
  ((Config.fmulChoice = none ∧ fmul = fmulDefault) ∨ Config.fmulChoice = some fmul)

/-- The default FADD gives a NaN exactly for a NaN operand and for infinities of opposite sign; its pattern is NAN_RESULT
(R78; notes/assumptions/2). -/
def Obligations.AddNaNExactly : Prop :=
  ∀ x y : B32,
    ((faddDefault x y).isNaN = true ↔
      x.isNaN = true ∨ y.isNaN = true ∨ (x.isInf = true ∧ y.isInf = true ∧ x.isNeg ≠ y.isNeg)) ∧
    ((faddDefault x y).isNaN = true → faddDefault x y = Config.nanResult .add x y)

/-- The default FMUL gives a NaN exactly for a NaN operand and for an infinity times a zero, a flushed subnormal included; its pattern is
NAN_RESULT (R78; notes/assumptions/2). -/
def Obligations.MulNaNExactly : Prop :=
  ∀ x y : B32,
    ((fmulDefault x y).isNaN = true ↔
      x.isNaN = true ∨ y.isNaN = true ∨ (x.isInf = true ∧ (y.flush Config.ftz).isZero = true) ∨
        (y.isInf = true ∧ (x.flush Config.ftz).isZero = true)) ∧
    ((fmulDefault x y).isNaN = true → fmulDefault x y = Config.nanResult .mul x y)

/-- Under the default FMUL x times 1 is x bit for bit in every lane that is no NaN, subnormals kept (R81 corner case, FTZ false;
notes/assumptions/2). -/
def Obligations.MulByOneIsIdentity : Prop :=
  ∀ nan x : B32, x.isNaN = false → B32.mulRne false nan x (immValue 1) = x

/-- Under the default FADD x + (-x) is +0 for every finite x, zeros and flushed subnormals included (R80 corner case;
notes/assumptions/2). -/
def Obligations.SumWithOppositeIsPositiveZero : Prop :=
  ∀ (ftz : Bool) (nan x : B32), x.isFinite = true →
    B32.addRne ftz nan x (x ^^^ 0x80000000) = 0

/-- Two immediates add and multiply exactly under the default FADD and FMUL (R80 and R81 corner cases; notes/assumptions/2). -/
def Obligations.ImmediateArithmeticIsExact : Prop :=
  ∀ i j : BitVec 7,
    (faddDefault (immValue i) (immValue j)).isFinite = true ∧
    (faddDefault (immValue i) (immValue j)).value = (i.toNat + j.toNat) * 2 ^ 149 ∧
    (fmulDefault (immValue i) (immValue j)).isFinite = true ∧
    (fmulDefault (immValue i) (immValue j)).value = (i.toNat * j.toNat) * 2 ^ 149

/-- With FTZ, subnormal operands of the default FADD and FMUL act as the zero of their sign and no result is subnormal (R78;
notes/assumptions/2 and 17). -/
def Obligations.FlushToZeroRemovesSubnormals : Prop :=
  ∀ nan x y : B32, nan.isNaN = true →
    (B32.addRne true nan x y).isSubnormal = false ∧ (B32.mulRne true nan x y).isSubnormal = false ∧
    B32.addRne true nan x y = B32.addRne true nan (x.flush true) (y.flush true) ∧
    B32.mulRne true nan x y = B32.mulRne true nan (x.flush true) (y.flush true)

/-- feq is IEEE quiet equality: false on a NaN, else equality of the values, infinities by their signs; with FTZ, each
subnormal operand is first read as the zero of its sign (R84; 93 G3). -/
def Obligations.QuietEqualityComparesValues : Prop :=
  (∀ p q : B32, B32.quietEq false p q = true ↔
    (p.isFinite = true ∧ q.isFinite = true ∧ p.value = q.value) ∨
    (p.isInf = true ∧ q.isInf = true ∧ p.isNeg = q.isNeg)) ∧
  (∀ p q : B32, B32.quietEq true p q = B32.quietEq false (p.flush true) (q.flush true)) ∧
  ∀ p : B32, p.flush true = if p.isSubnormal then (if p.isNeg then 0x80000000 else 0x00000000) else p

/-- CMP of two immediates gives EQ = 1 exactly when they are the same, and CMP of a register with itself gives EQ = 0 when it
holds a NaN lane and EQ = 1 otherwise (R84 corner cases). -/
def Obligations.CmpCornerCases : Prop :=
  (∀ (i j : BitVec 7) (s : State), ∃ t, exec (.cmp (.imm i) (.imm j)) s = .next t ∧ (t.eq = true ↔ i = j)) ∧
  ∀ (r : RegIdx) (s : State), ∃ t, exec (.cmp (.reg r) (.reg r)) s = .next t ∧
    (t.eq = true ↔ ∀ i : Fin Config.vlen, B32.isNaN (s.readReg r)[i] = false)

/-! ### The assembler -/

/-- Every program the assembler produces is canonical, branch targets aside (a label may name the index past the end,
notes/assumptions/18): each instruction is the encoding of a decoded instruction, its arena
addresses are below S, its literal addresses below the pool's length, at most 16384 instructions and literals, and K is 0
(R54, R57, R59). -/
def Obligations.AssembledProgramsAreWellFormed : Prop :=
  ∀ (text : List Char) (p : Program) (dropped : List Nat), assemble text = .program p dropped →
    (∀ b ∈ p.insns, ∃ i, decode b = .ok i ∧ encode i = b ∧ i.arenaInBounds p.bounds = true ∧
      i.literalInBounds p.bounds = true) ∧
    p.insns.length ≤ 16384 ∧ p.lit.length ≤ 16384 ∧ p.stateVecs ≤ 16384 ∧ p.scratchVecs = 0
end

