-- ==== Sys2Proof/Laws/Codec.lean ====
section
/-! SUPPORT. The small lemmas of the codec: bytes and pairs of what was encoded (30_encoding R42, R46). -/

namespace Sys2Proof

@[simp] theorem decodeIndex_encodeOperand (m : BitVec 1) (i : BitVec 7) : decodeIndex (encodeOperand m i) = i :=
  BitVec.extractLsb'_append_eq_right

@[simp] theorem decodeMode_encodeOperand (m : BitVec 1) (i : BitVec 7) : decodeMode (encodeOperand m i) = m :=
  BitVec.extractLsb'_append_eq_left

@[simp] theorem packAddress_unpackAddress (a : Addr) : packAddress (unpackAddress a).1 (unpackAddress a).2 = a := by
  apply BitVec.eq_of_getLsbD_eq
  intro i hi
  simp only [packAddress, unpackAddress, BitVec.getLsbD_append, BitVec.getLsbD_extractLsb']
  by_cases h : i < 7
  · simp [h]
  · have h1 : i - 7 < 7 := by omega
    have h2 : 7 + (i - 7) = i := by omega
    simp [h, h1, h2]

@[simp] theorem unpackAddress_packAddress (hi lo : BitVec 7) : unpackAddress (packAddress hi lo) = (hi, lo) := by
  simp only [unpackAddress, packAddress, Prod.mk.injEq]
  exact ⟨BitVec.extractLsb'_append_eq_left, BitVec.extractLsb'_append_eq_right⟩

@[simp] theorem pairAddress_encodePair (m : BitVec 1) (a : Addr) :
    pairAddress (encodePair m a).1 (encodePair m a).2 = a := by
  simp [pairAddress, encodePair]

@[simp] theorem decodeOperand_encodeOperandByte (o : Operand) : decodeOperand (encodeOperandByte o) = o := by
  cases o <;> simp [decodeOperand, encodeOperandByte]

@[simp] theorem decodeSpace_encodePair (sp : Space) (a : Addr) :
    decodeSpace (encodePair (spaceMode sp) a).1 = sp := by
  cases sp <;> simp [decodeSpace, encodePair, spaceMode]

@[simp] theorem decodeSpace_encodePair_arena (a : Addr) : decodeSpace (encodePair 0#1 a).1 = .arena := by
  simp [decodeSpace, encodePair]

@[simp] theorem withRegister_encodeOperand (i : RegIdx) (k : RegIdx → Except FaultCause Instr) :
    withRegister (encodeOperand 0#1 i) k = k i := by
  simp [withRegister]

end Sys2Proof
end

