-- ==== Sys2Proof/Laws/Float32.lean ====
section
/-! SUPPORT. The small lemmas of binary32 patterns: the fields of a packed pattern, NAN_RESULT, FTZ, and the range of the rounding
(42_arithmetic R77, R78). -/

namespace Sys2Proof

/-- The fields of a packed pattern. -/
theorem B32.pack_fields (neg : Bool) (m : Nat) (h : m < 2 ^ 31) :
    (B32.pack neg m).isNeg = neg ∧ (B32.pack neg m).expo = m / 2 ^ 23 ∧ (B32.pack neg m).frac = m % 2 ^ 23 := by
  unfold B32.pack B32.isNeg B32.expo B32.frac
  simp only [BitVec.extractLsb'_toNat, BitVec.toNat_ofNat, Nat.shiftRight_eq_div_pow]
  refine ⟨?_, ?_, ?_⟩
  · rw [← BitVec.msb_eq_getLsbD_last (x := BitVec.ofNat 32 _), BitVec.msb_eq_decide]
    cases neg <;> simp <;> omega
  · cases neg <;> simp <;> omega
  · cases neg <;> simp <;> omega

/-- A pattern is packed from its sign and its magnitude bits. -/
theorem B32.pack_self (x : B32) : B32.pack x.isNeg (x.toNat % 2 ^ 31) = x := by
  have hn : x.isNeg = decide (2 ^ 31 ≤ x.toNat) := by
    unfold B32.isNeg
    rw [← BitVec.msb_eq_getLsbD_last (x := x), BitVec.msb_eq_decide]
  apply BitVec.eq_of_toNat_eq
  have := x.isLt
  unfold B32.pack
  rw [hn, BitVec.toNat_ofNat]
  by_cases h : 2 ^ 31 ≤ x.toNat
  · simp only [h, decide_true, if_true]
    omega
  · simp only [h, decide_false, Bool.false_eq_true, if_false]
    omega

/-- Magnitude bits past those of infinity are a NaN. -/
theorem B32.pack_isNaN (neg : Bool) (m : Nat) (h1 : 2139095040 < m) (h2 : m < 2147483648) :
    (B32.pack neg m).isNaN = true := by
  obtain ⟨-, he, hf⟩ := B32.pack_fields neg m h2
  have h : m / 8388608 = 255 ∧ ¬ m % 8388608 = 0 := by omega
  simp [B32.isNaN, he, hf]
  exact h

/-- NAN_RESULT is a NaN, whatever the open parameter is (R5, U4). -/
@[simp] theorem Config.nanResult_isNaN (op : Config.LaneOp) (x y : B32) : (Config.nanResult op x y).isNaN = true := by
  have he : Config.nanResult op x y =
      B32.pack (Config.nanSign op x y) (255 * 2 ^ 23 + ((Config.nanFractionPred op x y).val + 1)) := by
    unfold Config.nanResult B32.pack
    rw [Nat.add_assoc]
  rw [he]
  have := (Config.nanFractionPred op x y).isLt
  generalize (Config.nanFractionPred op x y).val = n at *
  exact B32.pack_isNaN _ _ (by omega) (by omega)

/-- The rounding never passes infinity. -/
theorem B32.roundUnits_le (n d : Nat) : B32.roundUnits n d ≤ B32.infBits := Nat.min_le_right _ _

/-- A subnormal has exponent 0. -/
theorem B32.expo_of_isSubnormal (x : B32) (h : x.isSubnormal = true) : x.expo = 0 := by
  unfold B32.isSubnormal at h
  simp at h
  exact h.1

@[simp] theorem B32.flush_false (x : B32) : x.flush false = x := by simp [B32.flush]

@[simp] theorem B32.flush_isNaN (ftz : Bool) (x : B32) : (x.flush ftz).isNaN = x.isNaN := by
  unfold B32.flush
  split
  · rename_i h
    have he := B32.expo_of_isSubnormal x (by simp at h; exact h.1)
    have hx : x.isNaN = false := by simp [B32.isNaN, he]
    rw [hx]
    cases x.isNeg <;> decide
  · rfl

@[simp] theorem B32.flush_isInf (ftz : Bool) (x : B32) : (x.flush ftz).isInf = x.isInf := by
  unfold B32.flush
  split
  · rename_i h
    have he := B32.expo_of_isSubnormal x (by simp at h; exact h.1)
    have hx : x.isInf = false := by simp [B32.isInf, he]
    rw [hx]
    cases x.isNeg <;> decide
  · rfl

@[simp] theorem B32.flush_isNeg (ftz : Bool) (x : B32) : (x.flush ftz).isNeg = x.isNeg := by
  unfold B32.flush
  split
  · cases x.isNeg <;> decide
  · rfl

end Sys2Proof
end

