-- ==== Sys2Proof/Laws/State.lean ====
section
/-! SUPPORT. One lemma per field per update of State, each true by rfl, so that no later proof unfolds a record update. -/

namespace Sys2Proof.Machine

/-! ### State.writeReg -/

@[simp] theorem State.writeReg_pc (s : State) (i : RegIdx) (v : Vec) : (s.writeReg i v).pc = s.pc := rfl
@[simp] theorem State.writeReg_pcCur (s : State) (i : RegIdx) (v : Vec) : (s.writeReg i v).pcCur = s.pcCur := rfl
@[simp] theorem State.writeReg_insnWord (s : State) (i : RegIdx) (v : Vec) : (s.writeReg i v).insnWord = s.insnWord := rfl
@[simp] theorem State.writeReg_eq (s : State) (i : RegIdx) (v : Vec) : (s.writeReg i v).eq = s.eq := rfl
@[simp] theorem State.writeReg_steps (s : State) (i : RegIdx) (v : Vec) : (s.writeReg i v).steps = s.steps := rfl
@[simp] theorem State.writeReg_arenaCap (s : State) (i : RegIdx) (v : Vec) : (s.writeReg i v).arenaCap = s.arenaCap := rfl
@[simp] theorem State.writeReg_arena (s : State) (i : RegIdx) (v : Vec) : (s.writeReg i v).arena = s.arena := rfl
@[simp] theorem State.writeReg_imem (s : State) (i : RegIdx) (v : Vec) : (s.writeReg i v).imem = s.imem := rfl
@[simp] theorem State.writeReg_lit (s : State) (i : RegIdx) (v : Vec) : (s.writeReg i v).lit = s.lit := rfl
@[simp] theorem State.writeReg_stateVecs (s : State) (i : RegIdx) (v : Vec) : (s.writeReg i v).stateVecs = s.stateVecs := rfl
@[simp] theorem State.writeReg_scratchVecs (s : State) (i : RegIdx) (v : Vec) : (s.writeReg i v).scratchVecs = s.scratchVecs := rfl
@[simp] theorem State.writeReg_pending (s : State) (i : RegIdx) (v : Vec) : (s.writeReg i v).pending = s.pending := rfl
@[simp] theorem State.writeReg_runState (s : State) (i : RegIdx) (v : Vec) : (s.writeReg i v).runState = s.runState := rfl
@[simp] theorem State.writeReg_allocated (s : State) (i : RegIdx) (v : Vec) : (s.writeReg i v).allocated = s.allocated := rfl
@[simp] theorem State.writeReg_status (s : State) (i : RegIdx) (v : Vec) : (s.writeReg i v).status = s.status := rfl
@[simp] theorem State.writeReg_faultCause (s : State) (i : RegIdx) (v : Vec) : (s.writeReg i v).faultCause = s.faultCause := rfl
@[simp] theorem State.writeReg_faultPc (s : State) (i : RegIdx) (v : Vec) : (s.writeReg i v).faultPc = s.faultPc := rfl
@[simp] theorem State.writeReg_faultInsn (s : State) (i : RegIdx) (v : Vec) : (s.writeReg i v).faultInsn = s.faultInsn := rfl
@[simp] theorem State.writeReg_loadStatus (s : State) (i : RegIdx) (v : Vec) : (s.writeReg i v).loadStatus = s.loadStatus := rfl
@[simp] theorem State.writeReg_allocStatus (s : State) (i : RegIdx) (v : Vec) : (s.writeReg i v).allocStatus = s.allocStatus := rfl
@[simp] theorem State.writeReg_nout (s : State) (i : RegIdx) (v : Vec) : (s.writeReg i v).nout = s.nout := rfl
@[simp] theorem State.writeReg_outputs (s : State) (i : RegIdx) (v : Vec) : (s.writeReg i v).outputs = s.outputs := rfl
@[simp] theorem State.writeReg_hostCalls (s : State) (i : RegIdx) (v : Vec) : (s.writeReg i v).hostCalls = s.hostCalls := rfl
@[simp] theorem State.writeReg_blockNo (s : State) (i : RegIdx) (v : Vec) : (s.writeReg i v).blockNo = s.blockNo := rfl

/-! ### State.writeArena -/

@[simp] theorem State.writeArena_regs (s : State) (a : Nat) (v : Vec) : (s.writeArena a v).regs = s.regs := rfl
@[simp] theorem State.writeArena_pc (s : State) (a : Nat) (v : Vec) : (s.writeArena a v).pc = s.pc := rfl
@[simp] theorem State.writeArena_pcCur (s : State) (a : Nat) (v : Vec) : (s.writeArena a v).pcCur = s.pcCur := rfl
@[simp] theorem State.writeArena_insnWord (s : State) (a : Nat) (v : Vec) : (s.writeArena a v).insnWord = s.insnWord := rfl
@[simp] theorem State.writeArena_eq (s : State) (a : Nat) (v : Vec) : (s.writeArena a v).eq = s.eq := rfl
@[simp] theorem State.writeArena_steps (s : State) (a : Nat) (v : Vec) : (s.writeArena a v).steps = s.steps := rfl
@[simp] theorem State.writeArena_arenaCap (s : State) (a : Nat) (v : Vec) : (s.writeArena a v).arenaCap = s.arenaCap := rfl
@[simp] theorem State.writeArena_arena (s : State) (a : Nat) (v : Vec) : (s.writeArena a v).arena = s.arena.write a v := rfl
@[simp] theorem State.writeArena_imem (s : State) (a : Nat) (v : Vec) : (s.writeArena a v).imem = s.imem := rfl
@[simp] theorem State.writeArena_lit (s : State) (a : Nat) (v : Vec) : (s.writeArena a v).lit = s.lit := rfl
@[simp] theorem State.writeArena_stateVecs (s : State) (a : Nat) (v : Vec) : (s.writeArena a v).stateVecs = s.stateVecs := rfl
@[simp] theorem State.writeArena_scratchVecs (s : State) (a : Nat) (v : Vec) : (s.writeArena a v).scratchVecs = s.scratchVecs := rfl
@[simp] theorem State.writeArena_pending (s : State) (a : Nat) (v : Vec) : (s.writeArena a v).pending = s.pending := rfl
@[simp] theorem State.writeArena_runState (s : State) (a : Nat) (v : Vec) : (s.writeArena a v).runState = s.runState := rfl
@[simp] theorem State.writeArena_allocated (s : State) (a : Nat) (v : Vec) : (s.writeArena a v).allocated = s.allocated := rfl
@[simp] theorem State.writeArena_status (s : State) (a : Nat) (v : Vec) : (s.writeArena a v).status = s.status := rfl
@[simp] theorem State.writeArena_faultCause (s : State) (a : Nat) (v : Vec) : (s.writeArena a v).faultCause = s.faultCause := rfl
@[simp] theorem State.writeArena_faultPc (s : State) (a : Nat) (v : Vec) : (s.writeArena a v).faultPc = s.faultPc := rfl
@[simp] theorem State.writeArena_faultInsn (s : State) (a : Nat) (v : Vec) : (s.writeArena a v).faultInsn = s.faultInsn := rfl
@[simp] theorem State.writeArena_loadStatus (s : State) (a : Nat) (v : Vec) : (s.writeArena a v).loadStatus = s.loadStatus := rfl
@[simp] theorem State.writeArena_allocStatus (s : State) (a : Nat) (v : Vec) : (s.writeArena a v).allocStatus = s.allocStatus := rfl
@[simp] theorem State.writeArena_nout (s : State) (a : Nat) (v : Vec) : (s.writeArena a v).nout = s.nout := rfl
@[simp] theorem State.writeArena_outputs (s : State) (a : Nat) (v : Vec) : (s.writeArena a v).outputs = s.outputs := rfl
@[simp] theorem State.writeArena_hostCalls (s : State) (a : Nat) (v : Vec) : (s.writeArena a v).hostCalls = s.hostCalls := rfl
@[simp] theorem State.writeArena_blockNo (s : State) (a : Nat) (v : Vec) : (s.writeArena a v).blockNo = s.blockNo := rfl

/-! ### State.jumpTo -/

@[simp] theorem State.jumpTo_regs (s : State) (t : Addr) : (s.jumpTo t).regs = s.regs := rfl
@[simp] theorem State.jumpTo_pc (s : State) (t : Addr) : (s.jumpTo t).pc = t.setWidth 15 := rfl
@[simp] theorem State.jumpTo_pcCur (s : State) (t : Addr) : (s.jumpTo t).pcCur = s.pcCur := rfl
@[simp] theorem State.jumpTo_insnWord (s : State) (t : Addr) : (s.jumpTo t).insnWord = s.insnWord := rfl
@[simp] theorem State.jumpTo_eq (s : State) (t : Addr) : (s.jumpTo t).eq = s.eq := rfl
@[simp] theorem State.jumpTo_steps (s : State) (t : Addr) : (s.jumpTo t).steps = s.steps := rfl
@[simp] theorem State.jumpTo_arenaCap (s : State) (t : Addr) : (s.jumpTo t).arenaCap = s.arenaCap := rfl
@[simp] theorem State.jumpTo_arena (s : State) (t : Addr) : (s.jumpTo t).arena = s.arena := rfl
@[simp] theorem State.jumpTo_imem (s : State) (t : Addr) : (s.jumpTo t).imem = s.imem := rfl
@[simp] theorem State.jumpTo_lit (s : State) (t : Addr) : (s.jumpTo t).lit = s.lit := rfl
@[simp] theorem State.jumpTo_stateVecs (s : State) (t : Addr) : (s.jumpTo t).stateVecs = s.stateVecs := rfl
@[simp] theorem State.jumpTo_scratchVecs (s : State) (t : Addr) : (s.jumpTo t).scratchVecs = s.scratchVecs := rfl
@[simp] theorem State.jumpTo_pending (s : State) (t : Addr) : (s.jumpTo t).pending = s.pending := rfl
@[simp] theorem State.jumpTo_runState (s : State) (t : Addr) : (s.jumpTo t).runState = s.runState := rfl
@[simp] theorem State.jumpTo_allocated (s : State) (t : Addr) : (s.jumpTo t).allocated = s.allocated := rfl
@[simp] theorem State.jumpTo_status (s : State) (t : Addr) : (s.jumpTo t).status = s.status := rfl
@[simp] theorem State.jumpTo_faultCause (s : State) (t : Addr) : (s.jumpTo t).faultCause = s.faultCause := rfl
@[simp] theorem State.jumpTo_faultPc (s : State) (t : Addr) : (s.jumpTo t).faultPc = s.faultPc := rfl
@[simp] theorem State.jumpTo_faultInsn (s : State) (t : Addr) : (s.jumpTo t).faultInsn = s.faultInsn := rfl
@[simp] theorem State.jumpTo_loadStatus (s : State) (t : Addr) : (s.jumpTo t).loadStatus = s.loadStatus := rfl
@[simp] theorem State.jumpTo_allocStatus (s : State) (t : Addr) : (s.jumpTo t).allocStatus = s.allocStatus := rfl
@[simp] theorem State.jumpTo_nout (s : State) (t : Addr) : (s.jumpTo t).nout = s.nout := rfl
@[simp] theorem State.jumpTo_outputs (s : State) (t : Addr) : (s.jumpTo t).outputs = s.outputs := rfl
@[simp] theorem State.jumpTo_hostCalls (s : State) (t : Addr) : (s.jumpTo t).hostCalls = s.hostCalls := rfl
@[simp] theorem State.jumpTo_blockNo (s : State) (t : Addr) : (s.jumpTo t).blockNo = s.blockNo := rfl

/-! ### State.fetched -/

@[simp] theorem State.fetched_regs (s : State) (b : Insn) : (s.fetched b).regs = s.regs := rfl
@[simp] theorem State.fetched_pc (s : State) (b : Insn) : (s.fetched b).pc = s.pc + 1 := rfl
@[simp] theorem State.fetched_pcCur (s : State) (b : Insn) : (s.fetched b).pcCur = s.pc := rfl
@[simp] theorem State.fetched_insnWord (s : State) (b : Insn) : (s.fetched b).insnWord = b.word := rfl
@[simp] theorem State.fetched_eq (s : State) (b : Insn) : (s.fetched b).eq = s.eq := rfl
@[simp] theorem State.fetched_steps (s : State) (b : Insn) : (s.fetched b).steps = s.steps + 1 := rfl
@[simp] theorem State.fetched_arenaCap (s : State) (b : Insn) : (s.fetched b).arenaCap = s.arenaCap := rfl
@[simp] theorem State.fetched_arena (s : State) (b : Insn) : (s.fetched b).arena = s.arena := rfl
@[simp] theorem State.fetched_imem (s : State) (b : Insn) : (s.fetched b).imem = s.imem := rfl
@[simp] theorem State.fetched_lit (s : State) (b : Insn) : (s.fetched b).lit = s.lit := rfl
@[simp] theorem State.fetched_stateVecs (s : State) (b : Insn) : (s.fetched b).stateVecs = s.stateVecs := rfl
@[simp] theorem State.fetched_scratchVecs (s : State) (b : Insn) : (s.fetched b).scratchVecs = s.scratchVecs := rfl
@[simp] theorem State.fetched_pending (s : State) (b : Insn) : (s.fetched b).pending = s.pending := rfl
@[simp] theorem State.fetched_runState (s : State) (b : Insn) : (s.fetched b).runState = s.runState := rfl
@[simp] theorem State.fetched_allocated (s : State) (b : Insn) : (s.fetched b).allocated = s.allocated := rfl
@[simp] theorem State.fetched_status (s : State) (b : Insn) : (s.fetched b).status = s.status := rfl
@[simp] theorem State.fetched_faultCause (s : State) (b : Insn) : (s.fetched b).faultCause = s.faultCause := rfl
@[simp] theorem State.fetched_faultPc (s : State) (b : Insn) : (s.fetched b).faultPc = s.faultPc := rfl
@[simp] theorem State.fetched_faultInsn (s : State) (b : Insn) : (s.fetched b).faultInsn = s.faultInsn := rfl
@[simp] theorem State.fetched_loadStatus (s : State) (b : Insn) : (s.fetched b).loadStatus = s.loadStatus := rfl
@[simp] theorem State.fetched_allocStatus (s : State) (b : Insn) : (s.fetched b).allocStatus = s.allocStatus := rfl
@[simp] theorem State.fetched_nout (s : State) (b : Insn) : (s.fetched b).nout = s.nout := rfl
@[simp] theorem State.fetched_outputs (s : State) (b : Insn) : (s.fetched b).outputs = s.outputs := rfl
@[simp] theorem State.fetched_hostCalls (s : State) (b : Insn) : (s.fetched b).hostCalls = s.hostCalls := rfl
@[simp] theorem State.fetched_blockNo (s : State) (b : Insn) : (s.fetched b).blockNo = s.blockNo := rfl

/-! ### takeFault -/

@[simp] theorem takeFault_regs (c : FaultCause) (w : BitVec 32) (s : State) : (takeFault c w s).regs = s.regs := rfl
@[simp] theorem takeFault_pc (c : FaultCause) (w : BitVec 32) (s : State) : (takeFault c w s).pc = s.pc := rfl
@[simp] theorem takeFault_pcCur (c : FaultCause) (w : BitVec 32) (s : State) : (takeFault c w s).pcCur = s.pcCur := rfl
@[simp] theorem takeFault_insnWord (c : FaultCause) (w : BitVec 32) (s : State) : (takeFault c w s).insnWord = s.insnWord := rfl
@[simp] theorem takeFault_eq (c : FaultCause) (w : BitVec 32) (s : State) : (takeFault c w s).eq = s.eq := rfl
@[simp] theorem takeFault_steps (c : FaultCause) (w : BitVec 32) (s : State) : (takeFault c w s).steps = s.steps := rfl
@[simp] theorem takeFault_arenaCap (c : FaultCause) (w : BitVec 32) (s : State) : (takeFault c w s).arenaCap = s.arenaCap := rfl
@[simp] theorem takeFault_arena (c : FaultCause) (w : BitVec 32) (s : State) : (takeFault c w s).arena = s.arena := rfl
@[simp] theorem takeFault_imem (c : FaultCause) (w : BitVec 32) (s : State) : (takeFault c w s).imem = s.imem := rfl
@[simp] theorem takeFault_lit (c : FaultCause) (w : BitVec 32) (s : State) : (takeFault c w s).lit = s.lit := rfl
@[simp] theorem takeFault_stateVecs (c : FaultCause) (w : BitVec 32) (s : State) : (takeFault c w s).stateVecs = s.stateVecs := rfl
@[simp] theorem takeFault_scratchVecs (c : FaultCause) (w : BitVec 32) (s : State) : (takeFault c w s).scratchVecs = s.scratchVecs := rfl
@[simp] theorem takeFault_pending (c : FaultCause) (w : BitVec 32) (s : State) : (takeFault c w s).pending = s.pending := rfl
@[simp] theorem takeFault_runState (c : FaultCause) (w : BitVec 32) (s : State) : (takeFault c w s).runState = .idle := rfl
@[simp] theorem takeFault_allocated (c : FaultCause) (w : BitVec 32) (s : State) : (takeFault c w s).allocated = s.allocated := rfl
@[simp] theorem takeFault_status (c : FaultCause) (w : BitVec 32) (s : State) : (takeFault c w s).status = statusFault := rfl
@[simp] theorem takeFault_faultCause (c : FaultCause) (w : BitVec 32) (s : State) : (takeFault c w s).faultCause = faultCode c := rfl
@[simp] theorem takeFault_faultPc (c : FaultCause) (w : BitVec 32) (s : State) : (takeFault c w s).faultPc = s.pcCur := rfl
@[simp] theorem takeFault_faultInsn (c : FaultCause) (w : BitVec 32) (s : State) : (takeFault c w s).faultInsn = w := rfl
@[simp] theorem takeFault_loadStatus (c : FaultCause) (w : BitVec 32) (s : State) : (takeFault c w s).loadStatus = s.loadStatus := rfl
@[simp] theorem takeFault_allocStatus (c : FaultCause) (w : BitVec 32) (s : State) : (takeFault c w s).allocStatus = s.allocStatus := rfl
@[simp] theorem takeFault_nout (c : FaultCause) (w : BitVec 32) (s : State) : (takeFault c w s).nout = 0 := rfl
@[simp] theorem takeFault_outputs (c : FaultCause) (w : BitVec 32) (s : State) : (takeFault c w s).outputs = List.replicate s.nout zeroVec := rfl
@[simp] theorem takeFault_hostCalls (c : FaultCause) (w : BitVec 32) (s : State) : (takeFault c w s).hostCalls = s.hostCalls := rfl
@[simp] theorem takeFault_blockNo (c : FaultCause) (w : BitVec 32) (s : State) : (takeFault c w s).blockNo = s.blockNo := rfl

/-! ### outputStage -/

@[simp] theorem outputStage_regs (s : State) : (outputStage s).regs = s.regs := rfl
@[simp] theorem outputStage_pc (s : State) : (outputStage s).pc = s.pc := rfl
@[simp] theorem outputStage_pcCur (s : State) : (outputStage s).pcCur = s.pcCur := rfl
@[simp] theorem outputStage_insnWord (s : State) : (outputStage s).insnWord = s.insnWord := rfl
@[simp] theorem outputStage_eq (s : State) : (outputStage s).eq = s.eq := rfl
@[simp] theorem outputStage_steps (s : State) : (outputStage s).steps = s.steps := rfl
@[simp] theorem outputStage_arenaCap (s : State) : (outputStage s).arenaCap = s.arenaCap := rfl
@[simp] theorem outputStage_arena (s : State) : (outputStage s).arena = s.arena := rfl
@[simp] theorem outputStage_imem (s : State) : (outputStage s).imem = s.imem := rfl
@[simp] theorem outputStage_lit (s : State) : (outputStage s).lit = s.lit := rfl
@[simp] theorem outputStage_stateVecs (s : State) : (outputStage s).stateVecs = s.stateVecs := rfl
@[simp] theorem outputStage_scratchVecs (s : State) : (outputStage s).scratchVecs = s.scratchVecs := rfl
@[simp] theorem outputStage_pending (s : State) : (outputStage s).pending = s.pending := rfl
@[simp] theorem outputStage_runState (s : State) : (outputStage s).runState = .idle := rfl
@[simp] theorem outputStage_allocated (s : State) : (outputStage s).allocated = s.allocated := rfl
@[simp] theorem outputStage_status (s : State) : (outputStage s).status = statusOk := rfl
@[simp] theorem outputStage_faultCause (s : State) : (outputStage s).faultCause = s.faultCause := rfl
@[simp] theorem outputStage_faultPc (s : State) : (outputStage s).faultPc = s.faultPc := rfl
@[simp] theorem outputStage_faultInsn (s : State) : (outputStage s).faultInsn = s.faultInsn := rfl
@[simp] theorem outputStage_loadStatus (s : State) : (outputStage s).loadStatus = s.loadStatus := rfl
@[simp] theorem outputStage_allocStatus (s : State) : (outputStage s).allocStatus = s.allocStatus := rfl
@[simp] theorem outputStage_nout (s : State) : (outputStage s).nout = 0 := rfl
@[simp] theorem outputStage_outputs (s : State) : (outputStage s).outputs = s.regs.toList.take s.nout := rfl
@[simp] theorem outputStage_hostCalls (s : State) : (outputStage s).hostCalls = s.hostCalls := rfl
@[simp] theorem outputStage_blockNo (s : State) : (outputStage s).blockNo = s.blockNo := rfl

/-! ### resize -/

@[simp] theorem resize_regs (n : Nat) (s : State) : (resize n s).regs = Vector.replicate 128 zeroVec := rfl
@[simp] theorem resize_pc (n : Nat) (s : State) : (resize n s).pc = s.pc := rfl
@[simp] theorem resize_pcCur (n : Nat) (s : State) : (resize n s).pcCur = s.pcCur := rfl
@[simp] theorem resize_insnWord (n : Nat) (s : State) : (resize n s).insnWord = s.insnWord := rfl
@[simp] theorem resize_eq (n : Nat) (s : State) : (resize n s).eq = s.eq := rfl
@[simp] theorem resize_steps (n : Nat) (s : State) : (resize n s).steps = s.steps := rfl
@[simp] theorem resize_arenaCap (n : Nat) (s : State) : (resize n s).arenaCap = BitVec.ofNat 15 n := rfl
@[simp] theorem resize_arena (n : Nat) (s : State) : (resize n s).arena = [] := rfl
@[simp] theorem resize_imem (n : Nat) (s : State) : (resize n s).imem = [] := rfl
@[simp] theorem resize_lit (n : Nat) (s : State) : (resize n s).lit = [] := rfl
@[simp] theorem resize_stateVecs (n : Nat) (s : State) : (resize n s).stateVecs = 0 := rfl
@[simp] theorem resize_scratchVecs (n : Nat) (s : State) : (resize n s).scratchVecs = 0 := rfl
@[simp] theorem resize_pending (n : Nat) (s : State) : (resize n s).pending = none := rfl
@[simp] theorem resize_runState (n : Nat) (s : State) : (resize n s).runState = s.runState := rfl
@[simp] theorem resize_allocated (n : Nat) (s : State) : (resize n s).allocated = true := rfl
@[simp] theorem resize_status (n : Nat) (s : State) : (resize n s).status = s.status := rfl
@[simp] theorem resize_faultCause (n : Nat) (s : State) : (resize n s).faultCause = s.faultCause := rfl
@[simp] theorem resize_faultPc (n : Nat) (s : State) : (resize n s).faultPc = s.faultPc := rfl
@[simp] theorem resize_faultInsn (n : Nat) (s : State) : (resize n s).faultInsn = s.faultInsn := rfl
@[simp] theorem resize_loadStatus (n : Nat) (s : State) : (resize n s).loadStatus = s.loadStatus := rfl
@[simp] theorem resize_allocStatus (n : Nat) (s : State) : (resize n s).allocStatus = allocOk := rfl
@[simp] theorem resize_nout (n : Nat) (s : State) : (resize n s).nout = s.nout := rfl
@[simp] theorem resize_outputs (n : Nat) (s : State) : (resize n s).outputs = s.outputs := rfl
@[simp] theorem resize_hostCalls (n : Nat) (s : State) : (resize n s).hostCalls = s.hostCalls := rfl
@[simp] theorem resize_blockNo (n : Nat) (s : State) : (resize n s).blockNo = s.blockNo := rfl

/-! ### inputStage -/

@[simp] theorem inputStage_pc (l : List Vec) (s : State) : (inputStage l s).pc = s.pc := rfl
@[simp] theorem inputStage_pcCur (l : List Vec) (s : State) : (inputStage l s).pcCur = s.pcCur := rfl
@[simp] theorem inputStage_insnWord (l : List Vec) (s : State) : (inputStage l s).insnWord = s.insnWord := rfl
@[simp] theorem inputStage_eq (l : List Vec) (s : State) : (inputStage l s).eq = s.eq := rfl
@[simp] theorem inputStage_steps (l : List Vec) (s : State) : (inputStage l s).steps = s.steps := rfl
@[simp] theorem inputStage_arenaCap (l : List Vec) (s : State) : (inputStage l s).arenaCap = s.arenaCap := rfl
@[simp] theorem inputStage_arena (l : List Vec) (s : State) : (inputStage l s).arena = s.arena := rfl
@[simp] theorem inputStage_imem (l : List Vec) (s : State) : (inputStage l s).imem = s.imem := rfl
@[simp] theorem inputStage_lit (l : List Vec) (s : State) : (inputStage l s).lit = s.lit := rfl
@[simp] theorem inputStage_stateVecs (l : List Vec) (s : State) : (inputStage l s).stateVecs = s.stateVecs := rfl
@[simp] theorem inputStage_scratchVecs (l : List Vec) (s : State) : (inputStage l s).scratchVecs = s.scratchVecs := rfl
@[simp] theorem inputStage_pending (l : List Vec) (s : State) : (inputStage l s).pending = s.pending := rfl
@[simp] theorem inputStage_runState (l : List Vec) (s : State) : (inputStage l s).runState = s.runState := rfl
@[simp] theorem inputStage_allocated (l : List Vec) (s : State) : (inputStage l s).allocated = s.allocated := rfl
@[simp] theorem inputStage_status (l : List Vec) (s : State) : (inputStage l s).status = s.status := rfl
@[simp] theorem inputStage_faultCause (l : List Vec) (s : State) : (inputStage l s).faultCause = s.faultCause := rfl
@[simp] theorem inputStage_faultPc (l : List Vec) (s : State) : (inputStage l s).faultPc = s.faultPc := rfl
@[simp] theorem inputStage_faultInsn (l : List Vec) (s : State) : (inputStage l s).faultInsn = s.faultInsn := rfl
@[simp] theorem inputStage_loadStatus (l : List Vec) (s : State) : (inputStage l s).loadStatus = s.loadStatus := rfl
@[simp] theorem inputStage_allocStatus (l : List Vec) (s : State) : (inputStage l s).allocStatus = s.allocStatus := rfl
@[simp] theorem inputStage_nout (l : List Vec) (s : State) : (inputStage l s).nout = s.nout := rfl
@[simp] theorem inputStage_outputs (l : List Vec) (s : State) : (inputStage l s).outputs = s.outputs := rfl
@[simp] theorem inputStage_hostCalls (l : List Vec) (s : State) : (inputStage l s).hostCalls = s.hostCalls := rfl
@[simp] theorem inputStage_blockNo (l : List Vec) (s : State) : (inputStage l s).blockNo = s.blockNo := rfl

/-! ### State.ticked -/

@[simp] theorem State.ticked_hostCalls (s : State) : s.ticked.hostCalls = tickCalls s.hostCalls := rfl
@[simp] theorem State.ticked_regs (s : State) : s.ticked.regs = s.regs := rfl
@[simp] theorem State.ticked_pc (s : State) : s.ticked.pc = s.pc := rfl
@[simp] theorem State.ticked_pcCur (s : State) : s.ticked.pcCur = s.pcCur := rfl
@[simp] theorem State.ticked_insnWord (s : State) : s.ticked.insnWord = s.insnWord := rfl
@[simp] theorem State.ticked_eq (s : State) : s.ticked.eq = s.eq := rfl
@[simp] theorem State.ticked_steps (s : State) : s.ticked.steps = s.steps := rfl
@[simp] theorem State.ticked_arenaCap (s : State) : s.ticked.arenaCap = s.arenaCap := rfl
@[simp] theorem State.ticked_arena (s : State) : s.ticked.arena = s.arena := rfl
@[simp] theorem State.ticked_imem (s : State) : s.ticked.imem = s.imem := rfl
@[simp] theorem State.ticked_lit (s : State) : s.ticked.lit = s.lit := rfl
@[simp] theorem State.ticked_stateVecs (s : State) : s.ticked.stateVecs = s.stateVecs := rfl
@[simp] theorem State.ticked_scratchVecs (s : State) : s.ticked.scratchVecs = s.scratchVecs := rfl
@[simp] theorem State.ticked_pending (s : State) : s.ticked.pending = s.pending := rfl
@[simp] theorem State.ticked_runState (s : State) : s.ticked.runState = s.runState := rfl
@[simp] theorem State.ticked_allocated (s : State) : s.ticked.allocated = s.allocated := rfl
@[simp] theorem State.ticked_status (s : State) : s.ticked.status = s.status := rfl
@[simp] theorem State.ticked_faultCause (s : State) : s.ticked.faultCause = s.faultCause := rfl
@[simp] theorem State.ticked_faultPc (s : State) : s.ticked.faultPc = s.faultPc := rfl
@[simp] theorem State.ticked_faultInsn (s : State) : s.ticked.faultInsn = s.faultInsn := rfl
@[simp] theorem State.ticked_loadStatus (s : State) : s.ticked.loadStatus = s.loadStatus := rfl
@[simp] theorem State.ticked_allocStatus (s : State) : s.ticked.allocStatus = s.allocStatus := rfl
@[simp] theorem State.ticked_nout (s : State) : s.ticked.nout = s.nout := rfl
@[simp] theorem State.ticked_outputs (s : State) : s.ticked.outputs = [] := rfl
@[simp] theorem State.ticked_blockNo (s : State) : s.ticked.blockNo = s.blockNo := rfl

/-! ### State.handedOver -/

@[simp] theorem State.handedOver_outputs (s : State) : s.handedOver.outputs = [] := rfl
@[simp] theorem State.handedOver_regs (s : State) : s.handedOver.regs = s.regs := rfl
@[simp] theorem State.handedOver_pc (s : State) : s.handedOver.pc = s.pc := rfl
@[simp] theorem State.handedOver_pcCur (s : State) : s.handedOver.pcCur = s.pcCur := rfl
@[simp] theorem State.handedOver_insnWord (s : State) : s.handedOver.insnWord = s.insnWord := rfl
@[simp] theorem State.handedOver_eq (s : State) : s.handedOver.eq = s.eq := rfl
@[simp] theorem State.handedOver_steps (s : State) : s.handedOver.steps = s.steps := rfl
@[simp] theorem State.handedOver_arenaCap (s : State) : s.handedOver.arenaCap = s.arenaCap := rfl
@[simp] theorem State.handedOver_arena (s : State) : s.handedOver.arena = s.arena := rfl
@[simp] theorem State.handedOver_imem (s : State) : s.handedOver.imem = s.imem := rfl
@[simp] theorem State.handedOver_lit (s : State) : s.handedOver.lit = s.lit := rfl
@[simp] theorem State.handedOver_stateVecs (s : State) : s.handedOver.stateVecs = s.stateVecs := rfl
@[simp] theorem State.handedOver_scratchVecs (s : State) : s.handedOver.scratchVecs = s.scratchVecs := rfl
@[simp] theorem State.handedOver_pending (s : State) : s.handedOver.pending = s.pending := rfl
@[simp] theorem State.handedOver_runState (s : State) : s.handedOver.runState = s.runState := rfl
@[simp] theorem State.handedOver_allocated (s : State) : s.handedOver.allocated = s.allocated := rfl
@[simp] theorem State.handedOver_status (s : State) : s.handedOver.status = s.status := rfl
@[simp] theorem State.handedOver_faultCause (s : State) : s.handedOver.faultCause = s.faultCause := rfl
@[simp] theorem State.handedOver_faultPc (s : State) : s.handedOver.faultPc = s.faultPc := rfl
@[simp] theorem State.handedOver_faultInsn (s : State) : s.handedOver.faultInsn = s.faultInsn := rfl
@[simp] theorem State.handedOver_loadStatus (s : State) : s.handedOver.loadStatus = s.loadStatus := rfl
@[simp] theorem State.handedOver_allocStatus (s : State) : s.handedOver.allocStatus = s.allocStatus := rfl
@[simp] theorem State.handedOver_nout (s : State) : s.handedOver.nout = s.nout := rfl
@[simp] theorem State.handedOver_hostCalls (s : State) : s.handedOver.hostCalls = s.hostCalls := rfl
@[simp] theorem State.handedOver_blockNo (s : State) : s.handedOver.blockNo = s.blockNo := rfl

/-! ### Derived reads -/

@[simp] theorem State.writeReg_arenaBound (s : State) (i : RegIdx) (v : Vec) :
    (s.writeReg i v).arenaBound = s.arenaBound := rfl
@[simp] theorem State.writeArena_arenaBound (s : State) (a : Nat) (v : Vec) :
    (s.writeArena a v).arenaBound = s.arenaBound := rfl
@[simp] theorem State.fetched_arenaBound (s : State) (b : Insn) : (s.fetched b).arenaBound = s.arenaBound := rfl
@[simp] theorem State.writeArena_readReg (s : State) (a : Nat) (v : Vec) (r : RegIdx) :
    (s.writeArena a v).readReg r = s.readReg r := rfl
@[simp] theorem State.fetched_readReg (s : State) (b : Insn) (r : RegIdx) :
    (s.fetched b).readReg r = s.readReg r := rfl

end Sys2Proof.Machine
end

