-- ==== Sys2Proof/Laws/Ops.lean ====
section
/-! SUPPORT. What the shared operations of Ops, Operands and Flags do, said once each. -/

namespace Sys2Proof.Machine

/-! ### The arena -/

@[simp] theorem Memory.read_nil (a : Nat) : Memory.read [] a = zeroVec := rfl

/-- The canonical form, unfolded at an entry. -/
theorem Memory.wf_cons (a : Nat) (v : Vec) (rest : Memory) :
    Memory.wf ((a, v) :: rest) = true ↔ v ≠ zeroVec ∧ (∀ e ∈ rest, a < e.1) ∧ Memory.wf rest = true := by
  simp [Memory.wf, List.all_eq_true, and_assoc]

/-- An address listed nowhere reads as ZERO_VEC. -/
theorem Memory.read_of_forall_ne (m : Memory) (a : Nat) (h : ∀ e ∈ m, e.1 ≠ a) : Memory.read m a = zeroVec := by
  induction m with
  | nil => rfl
  | cons e rest ih =>
    obtain ⟨b, u⟩ := e
    have hb : a ≠ b := fun hab => h (b, u) (by simp) hab.symm
    simp only [Memory.read, if_neg hb]
    exact ih fun e he => h e (by simp [he])

/-- A write leaves every other address alone. -/
theorem Memory.read_write_ne (m : Memory) (a b : Nat) (v : Vec) (h : b ≠ a) :
    Memory.read (Memory.write m a v) b = Memory.read m b := by
  induction m with
  | nil =>
    simp only [Memory.write]
    split
    · rfl
    · simp [Memory.read, h]
  | cons e rest ih =>
    obtain ⟨c, u⟩ := e
    simp only [Memory.write]
    split
    · split
      · rfl
      · simp [Memory.read, h]
    · split
      · rename_i hac
        subst hac
        split <;> simp [Memory.read, h]
      · simp only [Memory.read, ih]

/-- A write in a canonical arena is read back. -/
theorem Memory.read_write_same (m : Memory) (a : Nat) (v : Vec) (hm : m.wf = true) :
    Memory.read (Memory.write m a v) a = v := by
  induction m with
  | nil =>
    simp only [Memory.write]
    split
    · rename_i hv
      simp [hv]
    · simp [Memory.read]
  | cons e rest ih =>
    obtain ⟨c, u⟩ := e
    obtain ⟨-, hlt, hrest⟩ := (Memory.wf_cons c u rest).1 hm
    simp only [Memory.write]
    split
    · rename_i hac
      split
      · rename_i hv
        rw [hv]
        refine Memory.read_of_forall_ne _ _ fun e he => ?_
        rcases List.mem_cons.1 he with rfl | he
        · simp; omega
        · have := hlt e he; omega
      · simp [Memory.read]
    · split
      · rename_i hac
        subst hac
        split
        · rename_i hv
          rw [hv]
          refine Memory.read_of_forall_ne _ _ fun e he => ?_
          have := hlt e he; omega
        · simp [Memory.read]
      · rename_i hac
        simp only [Memory.read, if_neg hac]
        exact ih hrest

/-- What a write lists: the address written, or what was listed before. -/
theorem Memory.mem_write (m : Memory) (a : Nat) (v : Vec) (e : Nat × Vec) (he : e ∈ Memory.write m a v) :
    e.1 = a ∨ e ∈ m := by
  induction m with
  | nil =>
    simp only [Memory.write] at he
    split at he <;> simp_all
  | cons f rest ih =>
    obtain ⟨c, u⟩ := f
    simp only [Memory.write] at he
    split at he
    · split at he
      · exact .inr he
      · rcases List.mem_cons.1 he with rfl | he
        · exact .inl rfl
        · exact .inr he
    · split at he
      · split at he
        · exact .inr (by simp [he])
        · rcases List.mem_cons.1 he with rfl | he
          · exact .inl rfl
          · exact .inr (by simp [he])
      · rcases List.mem_cons.1 he with rfl | he
        · exact .inr (by simp)
        · rcases ih he with h | h
          · exact .inl h
          · exact .inr (by simp [h])

/-- Every memory operation keeps the canonical form: the write does. -/
theorem Memory.wf_write (m : Memory) (a : Nat) (v : Vec) (hm : m.wf = true) : (Memory.write m a v).wf = true := by
  induction m with
  | nil =>
    simp only [Memory.write]
    split
    · rfl
    · rename_i hv
      simp [Memory.wf, hv]
  | cons e rest ih =>
    obtain ⟨c, u⟩ := e
    obtain ⟨hu, hlt, hrest⟩ := (Memory.wf_cons c u rest).1 hm
    simp only [Memory.write]
    split
    · rename_i hac
      split
      · exact hm
      · rename_i hv
        refine (Memory.wf_cons _ _ _).2 ⟨hv, fun e he => ?_, hm⟩
        rcases List.mem_cons.1 he with rfl | he
        · exact hac
        · have := hlt e he; omega
    · split
      · rename_i hac
        subst hac
        split
        · exact hrest
        · rename_i hv
          exact (Memory.wf_cons _ _ _).2 ⟨hv, hlt, hrest⟩
      · rename_i hnlt hne
        refine (Memory.wf_cons _ _ _).2 ⟨hu, fun e he => ?_, ih hrest⟩
        rcases Memory.mem_write rest a v e he with h | h
        · omega
        · exact hlt e h

/-- A write below a bound keeps the arena below it. -/
theorem Memory.below_write (m : Memory) (n a : Nat) (v : Vec) (hm : m.below n = true) (ha : a < n) :
    (Memory.write m a v).below n = true := by
  simp only [Memory.below, List.all_eq_true, decide_eq_true_eq] at hm ⊢
  intro e he
  rcases Memory.mem_write m a v e he with h | h
  · omega
  · exact hm e h

/-! ### Registers -/

/-- R[i] <- v, read back at any register. -/
theorem State.readReg_writeReg (s : State) (i r : RegIdx) (v : Vec) :
    (s.writeReg i v).readReg r = if r = i then v else s.readReg r := by
  simp only [State.readReg, State.writeReg, Vector.getElem_set, BitVec.toNat_inj]
  by_cases h : i = r
  · simp [h]
  · simp [h, Ne.symm h]

@[simp] theorem State.readReg_writeReg_same (s : State) (i : RegIdx) (v : Vec) : (s.writeReg i v).readReg i = v := by
  simp [State.readReg_writeReg]

/-! ### Vectors -/

@[simp] theorem broadcast_getElem (x : B32) (i : Nat) (h : i < Config.vlen) : (broadcast x)[i] = x := by
  simp [broadcast]

@[simp] theorem lanewise_getElem (f : B32 → B32 → B32) (a b : Vec) (i : Nat) (h : i < Config.vlen) :
    (lanewise f a b)[i] = f a[i] b[i] := by
  simp [lanewise]

/-- A lanewise operation of two broadcasts is a broadcast, for every VLEN (95_test_vectors, conventions). -/
theorem lanewise_broadcast (f : B32 → B32 → B32) (x y : B32) :
    lanewise f (broadcast x) (broadcast y) = broadcast (f x y) := by
  ext i hi : 1
  simp

/-- EQ of a compare is 1 exactly when every lane is quietly equal (R84). -/
theorem allLanesEqual_iff (x y : Vec) :
    allLanesEqual x y = true ↔ ∀ i : Fin Config.vlen, B32.quietEq Config.ftz x[i] y[i] = true := by
  simp [allLanesEqual]

/-- Two broadcasts compare as their one value does, for every VLEN: there is at least one lane (R5). -/
theorem allLanesEqual_broadcast (x y : B32) :
    allLanesEqual (broadcast x) (broadcast y) = B32.quietEq Config.ftz x y := by
  rw [Bool.eq_iff_iff, allLanesEqual_iff]
  have h0 : 0 < Config.vlen := Nat.succ_pos _
  constructor
  · intro h
    simpa using h ⟨0, h0⟩
  · intro h i
    simpa using h

/-! ### The resolver -/

/-- Everything resolveMemoryValue can answer (R70). -/
theorem resolveMemoryValue_cases (space : Space) (addr : Addr) (s : State) :
    (space = .arena ∧ s.arenaBound ≤ addr.toNat ∧ resolveMemoryValue space addr s = .error .arenaOutOfRange) ∨
    (space = .arena ∧ addr.toNat < s.arenaBound ∧ resolveMemoryValue space addr s = .ok (s.arena.read addr.toNat)) ∨
    (space = .literal ∧ s.lit.length ≤ addr.toNat ∧ resolveMemoryValue space addr s = .error .literalOutOfRange) ∨
    (space = .literal ∧ ∃ h : addr.toNat < s.lit.length,
      resolveMemoryValue space addr s = .ok (broadcast s.lit[addr.toNat])) := by
  cases space with
  | arena =>
    by_cases h : s.arenaBound ≤ addr.toNat
    · exact .inl ⟨rfl, h, by simp [resolveMemoryValue, h]⟩
    · exact .inr (.inl ⟨rfl, by omega, by simp [resolveMemoryValue, h]⟩)
  | literal =>
    by_cases h : addr.toNat < s.lit.length
    · exact .inr (.inr (.inr ⟨rfl, h, by simp [resolveMemoryValue, h]⟩))
    · exact .inr (.inr (.inl ⟨rfl, by omega, by simp [resolveMemoryValue, List.getElem?_eq_none (Nat.not_lt.1 h)]⟩))

/-- Everything resolveMemoryDestination can answer (R71). -/
theorem resolveMemoryDestination_cases (addr : Addr) (s : State) :
    (s.arenaBound ≤ addr.toNat ∧ resolveMemoryDestination addr s = .error .arenaOutOfRange) ∨
    (addr.toNat < s.arenaBound ∧ resolveMemoryDestination addr s = .ok addr.toNat) := by
  by_cases h : s.arenaBound ≤ addr.toNat
  · exact .inl ⟨h, by simp [resolveMemoryDestination, h]⟩
  · exact .inr ⟨by omega, by simp [resolveMemoryDestination, h]⟩

/-! ### Meanings that can fault -/

/-- Everything LOAD can do (R75). -/
theorem execLoad_cases (rd : RegIdx) (space : Space) (addr : Addr) (s : State) :
    (∃ v, resolveMemoryValue space addr s = .ok v ∧ execLoad rd space addr s = .next (s.writeReg rd v)) ∨
    (∃ c, resolveMemoryValue space addr s = .error c ∧ execLoad rd space addr s = .next (raiseFault c s)) := by
  cases h : resolveMemoryValue space addr s with
  | ok v => exact .inl ⟨v, rfl, by simp [execLoad, h]⟩
  | error c => exact .inr ⟨c, rfl, by simp [execLoad, h]⟩

/-- Everything STORE can do (R76). -/
theorem execStore_cases (rs : RegIdx) (addr : Addr) (s : State) :
    (addr.toNat < s.arenaBound ∧ execStore rs addr s = .next (s.writeArena addr.toNat (s.readReg rs))) ∨
    (s.arenaBound ≤ addr.toNat ∧ execStore rs addr s = .next (raiseFault .arenaOutOfRange s)) := by
  rcases resolveMemoryDestination_cases addr s with ⟨h, e⟩ | ⟨h, e⟩
  · exact .inr ⟨h, by simp [execStore, e]⟩
  · exact .inl ⟨h, by simp [execStore, e]⟩

end Sys2Proof.Machine
end

