-- ==== Sys2Proof/Laws/PerInstr.lean ====
section
/-! SUPPORT. The family OpcodeByte: the first byte of an instruction's encoding is its operation id in spec/opcode_table.json,
with opcode mode 0 (30_encoding R41, R49). -/

namespace Sys2Proof.Laws

/-- The operation ids of R49. -/
def operationId : Instr → Nat
  | .noop => 0
  | .endOp => 1
  | .move _ _ => 2
  | .load _ _ _ => 3
  | .store _ _ => 4
  | .cmp _ _ => 5
  | .bne _ => 6
  | .jmp _ => 7
  | .add _ _ _ => 8
  | .mul _ _ _ => 9
  | .shift _ _ _ => 10
  | .interp _ _ _ => 11
  | .svf _ _ _ => 12
  | .test1 _ _ _ => 13
  | .test2 _ _ _ => 14
  | .move1 _ _ _ => 15
  | .load1 _ _ _ => 16

/-- The opcode byte of the encoding is the operation id. -/
def OpcodeByte.Statement (i : Instr) : Prop := (encode i).opcode.toNat = operationId i

theorem OpcodeByte.noop : OpcodeByte.Statement .noop := rfl
theorem OpcodeByte.endOp : OpcodeByte.Statement .endOp := rfl
theorem OpcodeByte.move (rd : RegIdx) (src : Operand) : OpcodeByte.Statement (.move rd src) := rfl
theorem OpcodeByte.load (rd : RegIdx) (space : Space) (addr : Addr) : OpcodeByte.Statement (.load rd space addr) := rfl
theorem OpcodeByte.store (rs : RegIdx) (addr : Addr) : OpcodeByte.Statement (.store rs addr) := rfl
theorem OpcodeByte.cmp (src1 src2 : Operand) : OpcodeByte.Statement (.cmp src1 src2) := rfl
theorem OpcodeByte.bne (target : Addr) : OpcodeByte.Statement (.bne target) := rfl
theorem OpcodeByte.jmp (target : Addr) : OpcodeByte.Statement (.jmp target) := rfl
theorem OpcodeByte.add (rd : RegIdx) (src1 src2 : Operand) : OpcodeByte.Statement (.add rd src1 src2) := rfl
theorem OpcodeByte.mul (rd : RegIdx) (src1 src2 : Operand) : OpcodeByte.Statement (.mul rd src1 src2) := rfl
theorem OpcodeByte.shift (dest src1 src2 : Byte) : OpcodeByte.Statement (.shift dest src1 src2) := rfl
theorem OpcodeByte.interp (dest src1 src2 : Byte) : OpcodeByte.Statement (.interp dest src1 src2) := rfl
theorem OpcodeByte.svf (dest src1 src2 : Byte) : OpcodeByte.Statement (.svf dest src1 src2) := rfl
theorem OpcodeByte.test1 (dest src1 src2 : Byte) : OpcodeByte.Statement (.test1 dest src1 src2) := rfl
theorem OpcodeByte.test2 (dest src1 src2 : Byte) : OpcodeByte.Statement (.test2 dest src1 src2) := rfl
theorem OpcodeByte.move1 (dest src1 src2 : Byte) : OpcodeByte.Statement (.move1 dest src1 src2) := rfl
theorem OpcodeByte.load1 (dest src1 src2 : Byte) : OpcodeByte.Statement (.load1 dest src1 src2) := rfl

end Sys2Proof.Laws
end

