-- ==== Sys2Proof/Laws/Step.lean ====
section
/-! SUPPORT. What one step can do, said once: the next host call, or one engine step; what an engine step can be; and the seven
kinds of effect a meaning can have. -/

namespace Sys2Proof.Machine

/-- One step is the host call that is due, or one engine step by which the next call comes nearer; in both, the result of a call that
has returned is handed over. -/
theorem step_cases (s : State) :
    (∃ e rest, s.hostCalls = e :: rest ∧ e.delay = 0 ∧
      step s = .next (hostCall e.call { s with hostCalls := rest, outputs := [] })) ∨
    (s.engineTurn = true ∧ step s = engineStep s.ticked) := by
  cases h : s.hostCalls with
  | nil =>
    refine .inr ⟨by simp [State.engineTurn, h], ?_⟩
    have hs : s.ticked = s.handedOver := by
      cases s; simp_all [State.ticked, State.handedOver, tickCalls]
    simp [step, machineStep, agentStep, h, hs]
  | cons e rest =>
    cases hd : e.delay with
    | zero => exact .inl ⟨e, rest, rfl, hd, by simp [step, machineStep, agentStep, State.handedOver, h, hd]⟩
    | succ n =>
      refine .inr ⟨by simp [State.engineTurn, h, hd], ?_⟩
      simp [step, machineStep, agentStep, h, hd, State.ticked, State.handedOver, tickCalls]

/-- When it is the engine's turn, a step is an engine step. -/
theorem step_of_engineTurn (s : State) (h : s.engineTurn = true) : step s = engineStep s.ticked := by
  rcases step_cases s with ⟨e, rest, he, hd, -⟩ | ⟨-, hs⟩
  · simp [State.engineTurn, he, hd] at h
  · exact hs

/-- An engine step while IDLE keeps every piece of state (R108). -/
theorem engineStep_idle (s : State) (h : s.runState = .idle) : engineStep s = .next s := by
  simp [engineStep, h]

/-- An engine step while RUNNING is one turn of the dispatch loop (R64). -/
theorem engineStep_running (s : State) (h : s.runState = .running) : engineStep s = instructionStep s := by
  simp [engineStep, h]

/-- Everything one turn of the dispatch loop can be (R64 to R67). -/
theorem instructionStep_cases (s : State) :
    (s.steps = Config.maxSteps ∧ instructionStep s = .next (raiseBeforeFetch .stepLimit s)) ∨
    (s.steps ≠ Config.maxSteps ∧ s.imem.length ≤ s.pc.toNat ∧
      instructionStep s = .next (raiseBeforeFetch .pcOutOfRange s)) ∨
    (s.steps ≠ Config.maxSteps ∧ ∃ b, s.imem[s.pc.toNat]? = some b ∧ ∃ c, decode b = .error c ∧
      instructionStep s = .next (raiseFault c (s.fetched b))) ∨
    (s.steps ≠ Config.maxSteps ∧ ∃ b, s.imem[s.pc.toNat]? = some b ∧ ∃ i, decode b = .ok i ∧
      instructionStep s = exec i (s.fetched b)) := by
  by_cases hs : s.steps = Config.maxSteps
  · exact .inl ⟨hs, by simp [instructionStep, hs]⟩
  · cases hb : s.imem[s.pc.toNat]? with
    | none => exact .inr (.inl ⟨hs, List.getElem?_eq_none_iff.1 hb, by simp [instructionStep, hs, hb]⟩)
    | some b =>
      cases hd : decode b with
      | error c => exact .inr (.inr (.inl ⟨hs, b, rfl, c, hd, by simp [instructionStep, hs, hb, execute, hd]⟩))
      | ok i => exact .inr (.inr (.inr ⟨hs, b, rfl, i, hd, by simp [instructionStep, hs, hb, execute, hd]⟩))

/-- Everything a meaning can do to the state it is given: nothing, one register, one arena vector below S + K, EQ, pc, the end of
the block, or a fault entry. -/
theorem exec_cases (i : Instr) (s : State) :
    exec i s = .next s ∨
    (∃ r v, exec i s = .next (s.writeReg r v)) ∨
    (∃ a v, a < s.arenaBound ∧ exec i s = .next (s.writeArena a v)) ∨
    (∃ b, exec i s = .next { s with eq := b }) ∨
    (∃ t, exec i s = .next (s.jumpTo t)) ∨
    exec i s = .next (outputStage s) ∨
    ∃ c, exec i s = .next (raiseFault c s) := by
  cases i with
  | noop => exact .inl rfl
  | endOp => exact .inr (.inr (.inr (.inr (.inr (.inl rfl)))))
  | move rd src => exact .inr (.inl ⟨rd, _, rfl⟩)
  | load rd space addr =>
    rcases execLoad_cases rd space addr s with ⟨v, -, h⟩ | ⟨c, -, h⟩
    · exact .inr (.inl ⟨rd, v, h⟩)
    · exact .inr (.inr (.inr (.inr (.inr (.inr ⟨c, h⟩)))))
  | store rs addr =>
    rcases execStore_cases rs addr s with ⟨ha, h⟩ | ⟨-, h⟩
    · exact .inr (.inr (.inl ⟨_, _, ha, h⟩))
    · exact .inr (.inr (.inr (.inr (.inr (.inr ⟨_, h⟩)))))
  | cmp a b => exact .inr (.inr (.inr (.inl ⟨_, rfl⟩)))
  | bne target =>
    cases h : s.eq
    · exact .inr (.inr (.inr (.inr (.inl ⟨target, by simp [exec, execBne, h]⟩))))
    · exact .inl (by simp [exec, execBne, h])
  | jmp target => exact .inr (.inr (.inr (.inr (.inl ⟨target, rfl⟩))))
  | add rd a b => exact .inr (.inl ⟨rd, _, rfl⟩)
  | mul rd a b => exact .inr (.inl ⟨rd, _, rfl⟩)
  | shift => exact .inr (.inr (.inr (.inr (.inr (.inr ⟨_, rfl⟩)))))
  | interp => exact .inr (.inr (.inr (.inr (.inr (.inr ⟨_, rfl⟩)))))
  | svf => exact .inr (.inr (.inr (.inr (.inr (.inr ⟨_, rfl⟩)))))
  | test1 => exact .inr (.inr (.inr (.inr (.inr (.inr ⟨_, rfl⟩)))))
  | test2 => exact .inr (.inr (.inr (.inr (.inr (.inr ⟨_, rfl⟩)))))
  | move1 => exact .inr (.inr (.inr (.inr (.inr (.inr ⟨_, rfl⟩)))))
  | load1 => exact .inr (.inr (.inr (.inr (.inr (.inr ⟨_, rfl⟩)))))

end Sys2Proof.Machine
end

