-- ==== Sys2Proof/Tests/Slice0.lean ====
section
/-! SUPPORT. Tests. Expected values come from spec/95_test_vectors.md (named in each docstring) or are worked by hand from the rule
named. The witness_ theorems at the end show, for each statement that has hypotheses, a state and operands that meet them. -/

open Sys2Proof Sys2Proof.Machine Sys2Proof.Claims

namespace Sys2Proof.Tests

/-! ### WellFormed: each check refuses an ill-formed term -/

/-- LOAD of arena address 5 where S + K = 4 (W6). -/
theorem test_wf_load_arena : (Instr.load 0 .arena 5).wellFormed ⟨4, 0, 2⟩ = false := by decide
/-- STORE to arena address 4 where S + K = 4 (W6). -/
theorem test_wf_store : (Instr.store 1 4).wellFormed ⟨4, 0, 2⟩ = false := by decide
/-- LOAD of literal address 0 from an empty pool (W6). -/
theorem test_wf_load_literal : (Instr.load 0 .literal 0).wellFormed ⟨4, 0, 2⟩ = false := by decide
/-- BNE to index 2 in a program of 2 (V11, by check 10). -/
theorem test_wf_bne : (Instr.bne 2).wellFormed ⟨0, 0, 2⟩ = false := by decide
/-- JMP to index 2 in a program of 2 (V11). -/
theorem test_wf_jmp : (Instr.jmp 2).wellFormed ⟨0, 0, 2⟩ = false := by decide
/-- The last address and the last index are well formed (W6, V11). -/
theorem test_wf_boundary :
    ((Instr.load 0 .arena 3).wellFormed ⟨4, 0, 2⟩ && (Instr.jmp 1).wellFormed ⟨0, 0, 2⟩) = true := by decide

/-! ### Decode: words written out from 30_encoding (V1, V3 to V9) -/

/-- V1: the zero word, and dest ignored. -/
theorem test_decode_noop :
    decodeTableWord 32 0x00000000 = some .noop ∧ decodeTableWord 32 0x0000FF00 = some .noop := by decide
/-- V1. -/
theorem test_decode_end : decodeTableWord 32 0x00000001 = some .endOp := by decide
/-- V1, V3: an immediate source, and a register source with src2 ignored. -/
theorem test_decode_move :
    decodeTableWord 32 0x00FF7F02 = some (.move 127 (.imm 127)) ∧
    decodeTableWord 32 0xFF000102 = some (.move 1 (.reg 0)) := by decide
/-- V1, V4: the highest literal address, arena address 0 with w[31] ignored, and a middle arena address. -/
theorem test_decode_load :
    decodeTableWord 32 0x7FFF0503 = some (.load 5 .literal 16383) ∧
    decodeTableWord 32 0x80000003 = some (.load 0 .arena 0) ∧
    decodeTableWord 32 0x02010703 = some (.load 7 .arena 130) := by decide
/-- V1, V5. -/
theorem test_decode_store :
    decodeTableWord 32 0x7F7F0004 = some (.store 0 16383) ∧ decodeTableWord 32 0x02010304 = some (.store 3 130) := by decide
/-- V1, V8. -/
theorem test_decode_cmp :
    decodeTableWord 32 0x0000FF05 = some (.cmp (.reg 0) (.reg 0)) ∧
    decodeTableWord 32 0x84010005 = some (.cmp (.reg 1) (.imm 4)) := by decide
/-- V1, V9: w[23] ignored, and the highest target. -/
theorem test_decode_bne :
    decodeTableWord 32 0x00800006 = some (.bne 0) ∧ decodeTableWord 32 0x7F7F0006 = some (.bne 16383) := by decide
/-- V9. -/
theorem test_decode_jmp : decodeTableWord 32 0x48010007 = some (.jmp 200) := by decide
/-- V1, V6. -/
theorem test_decode_add :
    decodeTableWord 32 0x7F7F7F08 = some (.add 127 (.reg 127) (.reg 127)) ∧
    decodeTableWord 32 0x81010008 = some (.add 0 (.reg 1) (.imm 1)) := by decide
/-- P3. -/
theorem test_decode_mul : decodeTableWord 32 0x02000109 = some (.mul 1 (.reg 0) (.reg 2)) := by decide
/-- V1, R89 to R95: the reserved ids with the operand bytes they hold. -/
theorem test_decode_reserved :
    decodeTableWord 32 0x0000000A = some (.shift 0 0 0) ∧ decodeTableWord 32 0x0302010B = some (.interp 1 2 3) ∧
    decodeTableWord 32 0x0302010C = some (.svf 1 2 3) ∧ decodeTableWord 32 0x0302010D = some (.test1 1 2 3) ∧
    decodeTableWord 32 0x0302010E = some (.test2 1 2 3) ∧ decodeTableWord 32 0x0302010F = some (.move1 1 2 3) ∧
    decodeTableWord 32 0xFFFFFF10 = some (.load1 0xFF 0xFF 0xFF) := by decide
/-- V1: the words the decoder refuses, with their causes and the priority of R98. -/
theorem test_decode_faults :
    decode (Insn.ofWord 0x00000040) = .error .undefinedOpcode ∧ decode (Insn.ofWord 0x000000C1) = .error .undefinedOpcode ∧
    decode (Insn.ofWord 0x00000011) = .error .undefinedOpcode ∧ decode (Insn.ofWord 0x0000003F) = .error .undefinedOpcode ∧
    decode (Insn.ofWord 0x00008002) = .error .illegalOperand ∧ decode (Insn.ofWord 0x00800004) = .error .storeToLiteral ∧
    decode (Insn.ofWord 0x00808004) = .error .illegalOperand ∧ decode (Insn.ofWord 0x00008009) = .error .illegalOperand := by
  refine ⟨?_, ?_, ?_, ?_, ?_, ?_, ?_, ?_⟩ <;> rfl
/-- W1 and W2: operand bytes and address pairs. -/
theorem test_operand_bytes :
    encodeOperand 0 127 = 0x7F ∧ encodeOperand 1 0 = 0x80 ∧ encodeOperand 1 127 = 0xFF ∧ packAddress 1 2 = 130 ∧
    packAddress 127 127 = 16383 ∧ unpackAddress 200 = (1, 72) := by decide
/-- W3, V5, V9, P3: the words of encoded instructions. -/
theorem test_encode :
    (encode (.move 1 (.imm 5))).word = 0x00850102 ∧ (encode (.store 3 130)).word = 0x02010304 ∧
    (encode (.load 3 .literal 1)).word = 0x01800303 ∧ (encode (.bne 5)).word = 0x05000006 ∧
    (encode (.jmp 200)).word = 0x48010007 ∧ (encode (.cmp (.imm 3) (.imm 3))).word = 0x83830005 ∧
    (encode (.mul 1 (.reg 0) (.reg 2))).word = 0x02000109 := by decide

/-! ### Lane arithmetic (V6, V7, V8) -/

/-- V6, FTZ false. -/
theorem test_add_vectors (nan : B32) :
    B32.addRne false nan 0x40A00000 0x3F800000 = 0x40C00000 ∧ B32.addRne false nan 0x3DCCCCCD 0x3E4CCCCD = 0x3E99999A ∧
    B32.addRne false nan 0x00000000 0x80000000 = 0x00000000 ∧ B32.addRne false nan 0x80000000 0x80000000 = 0x80000000 ∧
    B32.addRne false nan 0x40400000 0xC0400000 = 0x00000000 ∧ B32.addRne false nan 0x7F61B1E6 0x7F61B1E6 = 0x7F800000 ∧
    B32.addRne false nan 0x3F800000 0x33800000 = 0x3F800000 ∧ B32.addRne false nan 0x3F800000 0x34400000 = 0x3F800002 ∧
    B32.addRne false nan 0x40490FD0 0x3F800000 = 0x408487E8 := by
  refine ⟨?_, ?_, ?_, ?_, ?_, ?_, ?_, ?_, ?_⟩ <;> rfl
/-- V6: the NaN rows, and the subnormal row under both values of FTZ. -/
theorem test_add_special (nan : B32) :
    B32.addRne false nan 0x7F800000 0xFF800000 = nan ∧ B32.addRne false nan 0x7FC00000 0x3F800000 = nan ∧
    B32.addRne false nan 1 1 = 2 ∧ B32.addRne true nan 1 1 = 0 := by
  refine ⟨?_, ?_, ?_, ?_⟩ <;> rfl
/-- V7, FTZ false. -/
theorem test_mul_vectors (nan : B32) :
    B32.mulRne false nan 0x40C00000 0x40C00000 = 0x42100000 ∧ B32.mulRne false nan 0x42FE0000 0x42FE0000 = 0x467C0400 ∧
    B32.mulRne false nan 0x7F61B1E6 0x40000000 = 0x7F800000 ∧ B32.mulRne false nan 0xC0400000 0x00000000 = 0x80000000 ∧
    B32.mulRne false nan 0x80000000 0x40A00000 = 0x80000000 ∧ B32.mulRne false nan 0x00000001 0x3F000000 = 0x00000000 ∧
    B32.mulRne false nan 0x00000003 0x3F000000 = 0x00000002 ∧ B32.mulRne false nan 0x40490FD0 0x40490FD0 = 0x411DE9D6 := by
  refine ⟨?_, ?_, ?_, ?_, ?_, ?_, ?_, ?_⟩ <;> rfl
/-- V7: the NaN rows, and the subnormal result under both values of FTZ. -/
theorem test_mul_special (nan : B32) :
    B32.mulRne false nan 0x00000000 0x7F800000 = nan ∧ B32.mulRne false nan 0xFF800000 0x00000000 = nan ∧
    B32.mulRne false nan 0x00800000 0x3F000000 = 0x00400000 ∧ B32.mulRne true nan 0x00800000 0x3F000000 = 0 := by
  refine ⟨?_, ?_, ?_, ?_⟩ <;> rfl
/-- V8: signed zeros, a NaN, two values, a subnormal under both values of FTZ. -/
theorem test_quiet_equality :
    B32.quietEq false 0x00000000 0x80000000 = true ∧ B32.quietEq false 0x7FC00000 0x7FC00000 = false ∧
    B32.quietEq false 0x40800000 0x40A00000 = false ∧ B32.quietEq false 1 0 = false ∧ B32.quietEq true 1 0 = true := by
  decide
/-- V2, R45: immediates. -/
theorem test_immediates : immValue 0 = 0 ∧ immValue 1 = 0x3F800000 ∧ immValue 127 = 0x42FE0000 := by decide

/-! ### Small machines -/

/-- Power-on with one instruction word where the next step fetches it. -/
def fetching (w : Nat) : State := State.reset.withFetchWord 32 w

/-- A running block of the program [END], allocated at 0, one output. -/
def runningEnd : State :=
  { State.reset with allocated := true, imem := [encode .endOp], runState := .running, nout := 1 }

/-- An allocated, idle block with the program [END] pending and the host calls given. -/
def idleEnd (calls : List HostEvent) : State :=
  { State.reset with allocated := true, pending := some ⟨[encode .endOp], [], 0, 0⟩, hostCalls := calls }

/-- A block with S = 2, K = 1 and one literal, reached without an allocation: enough to run one LOAD or STORE. -/
def smallArena : State :=
  { State.reset with stateVecs := 2, scratchVecs := 1, lit := [0x3F800000], pcCur := 9, insnWord := 77 }

/-- ZERO_VEC is the broadcast of +0, and no broadcast of another pattern: there is a lane (R5). -/
theorem broadcast_ne_zeroVec (x : B32) (h : x ≠ 0) : broadcast x ≠ zeroVec := by
  intro he
  have h0 : 0 < Config.vlen := Nat.succ_pos _
  have hl : (broadcast x)[0] = zeroVec[0] := by rw [he]
  simp [zeroVec] at hl
  exact h hl

/-- MAX_STEPS is at least 1 (R5). -/
theorem zero_ne_maxSteps : (0 : Nat) ≠ Config.maxSteps := (Nat.succ_ne_zero _).symm

/-! ### Steps -/

/-- R82, V9: NOP advances pc and STEPS. -/
theorem test_step_noop : ∃ t, step (fetching 0) = .next t ∧ t.pc = 1 ∧ t.steps = 1 := ⟨_, rfl, rfl, rfl⟩
/-- R83: END ends the block with OK. -/
theorem test_step_end : ∃ t, step (fetching 1) = .next t ∧ t.status = 0 ∧ t.runState = .idle := ⟨_, rfl, rfl, rfl⟩
/-- V3: MOV R1, #5. -/
theorem test_step_move : ∃ t, step (fetching 0x00850102) = .next t ∧ t.readReg 1 = broadcast 0x40A00000 := by
  refine ⟨_, rfl, ?_⟩
  simp only [resolveValue]
  rfl
/-- V6: ADD R1, R1, R1 reads both sources before it writes. -/
theorem test_exec_add :
    ∃ t, exec (.add 1 (.reg 1) (.reg 1)) (State.reset.writeReg 1 (broadcast 0x40400000)) = .next t ∧
      t.readReg 1 = broadcast (fadd 0x40400000 0x40400000) := by
  refine ⟨_, rfl, ?_⟩
  simp only [State.readReg_writeReg_same, resolveValue, lanewise_broadcast]
/-- V7: 6.0 times 6.0. -/
theorem test_exec_mul :
    ∃ t, exec (.mul 0 (.imm 6) (.imm 6)) State.reset = .next t ∧
      t.readReg 0 = broadcast (fmul (immValue 6) (immValue 6)) := by
  refine ⟨_, rfl, ?_⟩
  simp only [State.readReg_writeReg_same, resolveValue, lanewise_broadcast]
/-- V4, V2: a literal is broadcast, address LIT_LEN faults. -/
theorem test_exec_load :
    (∃ t, exec (.load 2 .literal 0) smallArena = .next t ∧ t.readReg 2 = broadcast 0x3F800000) ∧
    ∃ t, exec (.load 2 .literal 1) smallArena = .next t ∧ t.faultCause = 5 := by
  refine ⟨⟨_, rfl, ?_⟩, ⟨_, rfl, rfl⟩⟩
  simp
/-- V5: a store is read back, and address S + K faults. -/
theorem test_exec_store :
    (∃ t, exec (.store 3 2) (smallArena.writeReg 3 (broadcast 1)) = .next t ∧ t.arena.read 2 = broadcast 1) ∧
    ∃ t, exec (.store 3 3) smallArena = .next t ∧ t.faultCause = 4 := by
  refine ⟨⟨_, rfl, ?_⟩, ⟨_, rfl, rfl⟩⟩
  have h := Memory.read_write_same smallArena.arena 2 (broadcast 1) rfl
  rw [← State.readReg_writeReg_same smallArena 3 (broadcast 1)] at h
  simpa using h
/-- V8: equal and unequal immediates, whatever FTZ is. -/
theorem test_exec_cmp :
    (∃ t, exec (.cmp (.imm 3) (.imm 3)) State.reset = .next t ∧ t.eq = true) ∧
    ∃ t, exec (.cmp (.imm 3) (.imm 4)) { State.reset with eq := true } = .next t ∧ t.eq = false := by
  have h3 : ∀ f, B32.quietEq f (immValue 3) (immValue 3) = true := by decide
  have h4 : ∀ f, B32.quietEq f (immValue 3) (immValue 4) = false := by decide
  refine ⟨⟨_, rfl, ?_⟩, ⟨_, rfl, ?_⟩⟩
  · simp only [resolveValue, allLanesEqual_broadcast, h3]
  · simp only [resolveValue, allLanesEqual_broadcast, h4]
/-- V9: BNE #1 at index 3, taken and not. -/
theorem test_exec_bne :
    (∃ t, exec (.bne 1) { State.reset with pc := 4 } = .next t ∧ t.pc = 1) ∧
    ∃ t, exec (.bne 1) { State.reset with pc := 4, eq := true } = .next t ∧ t.pc = 4 := ⟨⟨_, rfl, rfl⟩, ⟨_, rfl, rfl⟩⟩
/-- V9: JMP #200. -/
theorem test_step_jmp : ∃ t, step (fetching 0x48010007) = .next t ∧ t.pc = 200 := ⟨_, rfl, rfl⟩
/-- R89, V10: SHIFT faults with its word, and the fetch stands. -/
theorem test_step_shift :
    ∃ t, step (fetching 0x0000000A) = .next t ∧ t.faultCause = 1 ∧ t.faultInsn = 0x0000000A ∧ t.status = 1 ∧ t.pc = 1 :=
  ⟨_, rfl, rfl, rfl, rfl, rfl⟩
/-- R90 to R95: the other reserved ids fault alike. -/
theorem test_step_reserved :
    (∃ t, step (fetching 0x0000000B) = .next t ∧ t.faultCause = 1) ∧ (∃ t, step (fetching 0x0000000C) = .next t ∧ t.faultCause = 1) ∧
    (∃ t, step (fetching 0x0000000D) = .next t ∧ t.faultCause = 1) ∧ (∃ t, step (fetching 0x0000000E) = .next t ∧ t.faultCause = 1) ∧
    (∃ t, step (fetching 0x0000000F) = .next t ∧ t.faultCause = 1) ∧ ∃ t, step (fetching 0x00000010) = .next t ∧ t.faultCause = 1 :=
  ⟨⟨_, rfl, rfl⟩, ⟨_, rfl, rfl⟩, ⟨_, rfl, rfl⟩, ⟨_, rfl, rfl⟩, ⟨_, rfl, rfl⟩, ⟨_, rfl, rfl⟩⟩
/-- V10: 0x00808004 faults ILLEGAL_OPERAND, by priority over STORE_TO_LITERAL. -/
theorem test_step_decode_fault :
    ∃ t, step (fetching 0x00808004) = .next t ∧ t.faultCause = 2 ∧ t.faultInsn = 0x00808004 ∧ t.steps = 1 :=
  ⟨_, rfl, rfl, rfl, rfl⟩
/-- V10, P5: pc = PROG_LEN faults with word 0, the index in FAULT_PC. -/
theorem test_step_pc_out_of_range :
    ∃ t, step { runningEnd with pc := 1 } = .next t ∧ t.faultCause = 6 ∧ t.faultPc = 1 ∧ t.faultInsn = 0 :=
  ⟨_, rfl, rfl, rfl, rfl⟩
/-- V10: at the ceiling the fault is STEP_LIMIT even with pc past the program. -/
theorem test_step_ceiling :
    ∃ t, step { runningEnd with pc := 5, steps := Config.maxSteps } = .next t ∧ t.faultCause = 7 ∧ t.faultPc = 5 := by
  refine ⟨_, by simp [step, machineStep, runningEnd, State.reset, agentStep, State.handedOver, engineStep, instructionStep]; rfl, rfl, rfl⟩

/-! ### Transactions -/

/-- V12: a first allocation of 0 vectors. -/
theorem test_allocate :
    (allocateMemory 0 0 State.reset).allocated = true ∧ (allocateMemory 0 0 State.reset).allocStatus = 0 := by
  simp [allocateMemory, State.reset, resize, allocOk]
/-- The program [END] passes every check, whatever IMEM_DEPTH is (R112). -/
theorem validate_end : validate true 0 ⟨[encode .endOp], [], 0, 0⟩ = .accepted := by
  have h : ¬ Config.imemDepth < 1 := by simp [Config.imemDepth]
  simp only [validate, List.length_singleton, h, if_false]
  decide
/-- V11, with programs of one or no word: checks 1, 4 and 11, first failures first. -/
theorem test_validate :
    validate false 4 ⟨[encode .endOp], [], 0, 0⟩ = .notAllocated ∧ validate true 4 ⟨[], [], 3, 2⟩ = .memoryTooLarge ∧
    validate true 4 ⟨[], [], 0, 0⟩ = .noEnd := by
  have h : ¬ Config.imemDepth < 0 := Nat.not_lt_zero _
  refine ⟨rfl, ?_, ?_⟩ <;> simp only [validate, List.length_nil, h, if_false] <;> decide
/-- W6, V11: the checks on one word each, in the order of R112. -/
theorem test_validate_checks :
    badOpcode 0x00000040 = true ∧ badOpcode 0xFFFFFF10 = false ∧ badOperand 0x00008002 = true ∧ badOperand 0x00808004 = true ∧
    badOperand 0x00800004 = false ∧ storesToLiteral 0x00800004 = true ∧ arenaOutside 4 0x05000003 = true ∧
    arenaOutside 4 0x03000003 = false ∧ arenaOutside 4 0x04000104 = true ∧ literalOutside 0 0x00800003 = true ∧
    branchOutside 2 0x02000007 = true ∧ branchOutside 2 0x01000007 = false := by decide
/-- V13: the refusals at power-on and for the counts. -/
theorem test_process_refusals :
    processRefusal 0 1 State.reset = some 2 ∧ processRefusal 0 0 (idleEnd []) = some 3 ∧
    processRefusal 0 129 (idleEnd []) = some 3 ∧ processRefusal 129 1 (idleEnd []) = some 3 ∧
    processRefusal 0 1 runningEnd = some 2 ∧ processRefusal 128 128 (idleEnd []) = none := by decide
/-- W5: the output stage of END copies the register of each output. -/
theorem test_exec_end (v : Vec) :
    ∃ t, exec .endOp (({ State.reset with nout := 2 } : State).writeReg 1 v) = .next t ∧ t.outputs[1]? = some v ∧
      t.outputs.length = 2 := by
  refine ⟨_, rfl, ?_, ?_⟩ <;> simp [outputStage, State.writeReg, State.reset]
/-- W5: the input stage copies input 0 into R0, and block start installs the pending program. -/
theorem test_process (x : Vec) :
    (process [x] 2 (idleEnd [])).readReg 0 = x ∧ (process [x] 2 (idleEnd [])).imem = [encode .endOp] := by
  have h : processRefusal [x].length 2 (idleEnd []) = none := rfl
  constructor
  · simp [process, processRefusal, idleEnd, State.reset, inputStage, inputRegs, State.readReg]
  · unfold process
    rw [h]
    rfl
/-- R26: ENGINE_FLAGS of an allocated, running block with an active program and nothing pending. -/
theorem test_engine_flags : readStatus 6 runningEnd = 0x0000000B := by decide

/-! ### The assembler -/

/-- W3. -/
theorem test_asm_w3 :
    assemble "MOV R1, #5\nADD R0, R1, #1\nEND".toList =
      .program ⟨[Insn.ofWord 0x00850102, Insn.ofWord 0x81010008, Insn.ofWord 0x00000001], [], 0, 0⟩ [] := by decide
/-- W4. -/
theorem test_asm_literal :
    assemble "LDR R2, =3.14159\nEND".toList =
      .program ⟨[Insn.ofWord 0x00800203, Insn.ofWord 0x00000001], [0x40490FD0], 0, 0⟩ [] := by decide
/-- W8: an unknown mnemonic drops its line; an immediate past 127 fails the assembly; R58: dropped lines have their diagnostic when
the assembly fails too. -/
theorem test_asm_errors :
    assemble "MOV R1, #5\nFOO R1, R2\nEND".toList =
      .program ⟨[Insn.ofWord 0x00850102, Insn.ofWord 0x00000001], [], 0, 0⟩ [2] ∧
    assemble "MOV R1, #128".toList = .failed 1 .outOfRange [] ∧
    assemble "FOO\nMOV R1\nBAR".toList = .failed 2 .operandCount [1, 3] := by decide
/-- P1: a label, resolved to index 1. -/
theorem test_asm_label :
    assemble "NOP ; first\nloop: ADD R1, R1, #1\nBNE loop // again".toList =
      .program ⟨[Insn.ofWord 0, Insn.ofWord 0x81010108, Insn.ofWord 0x01000006], [], 0, 0⟩ [] := by decide
/-- P2: memory references and the descriptor. -/
theorem test_asm_memory :
    assemble "LDR R1, [R0]\nSTR R3, [R1, #2]".toList =
      .program ⟨[Insn.ofWord 0x00000103, Insn.ofWord 0x02010304], [], 131, 0⟩ [] := by decide

/-- R53 item 3 and item 6: the three forms of a memory reference, and groups that are none of them. -/
theorem test_asm_memory_forms :
    classify "[R1]".toList = .memory 1 0 ∧ classify "[R1, R2]".toList = .memory 1 2 ∧ classify "[R1, #2]".toList = .memory 1 2 ∧
    classify "[R1 R2]".toList = .malformed ∧ classify "[R1 #2]".toList = .malformed ∧ classify "[R1,,#2]".toList = .malformed ∧
    classify "[,R1]".toList = .malformed ∧ classify "[R1,]".toList = .malformed ∧ classify "[]".toList = .malformed := by decide
/-- notes/assumptions/18: a literal keeps the sign of its zero, and a signed integer after # is malformed. -/
theorem test_asm_signs :
    classify "=-0.0".toList = .literal 0x80000000 ∧ classify "=0.0".toList = .literal 0x00000000 ∧
    classify "=-1e-60".toList = .literal 0x80000000 ∧ classify "#+5".toList = .malformed ∧ classify "#-0".toList = .malformed := by
  decide

/-! ### Witnesses: for each statement with hypotheses, a state and operands that meet them -/

/-- The word placed is the instruction that is fetched next. -/
theorem fetching_fetches (w : Nat) : (fetching w).FetchesNext (Insn.ofWord (BitVec.ofNat 32 (w % 2 ^ 32))) where
  running := rfl
  turn := rfl
  belowCeiling := by
    have h : (State.reset.steps = Config.maxSteps) = False := eq_false zero_ne_maxSteps
    show (if State.reset.steps = Config.maxSteps then 0 else State.reset.steps) ≠ Config.maxSteps
    rw [if_neg (by rw [h]; exact id)]
    exact zero_ne_maxSteps
  insn := rfl

/-- The running block of [END] has the invariant. -/
theorem runningEnd_inv : runningEnd.Inv where
  arenaCanonical := rfl
  arenaInside := rfl
  capacity := Nat.zero_le _
  requirement := Nat.zero_le _
  programLength := Nat.succ_le_succ (Nat.zero_le _)
  poolLength := Nat.zero_le _
  stepCeiling := Nat.zero_le _
  pcRange := Nat.zero_le _
  causeCodes := Nat.zero_le _
  loadCodes := Nat.zero_le _
  allocCodes := Nat.zero_le _
  runningBlock := fun _ => ⟨rfl, by decide, Nat.le_refl _, by decide⟩
  noResultYet := fun _ => rfl
  noCallHeld := fun h => (by cases h)
  pendingAccepted := fun p h => (by cases h)

/-- The idle block with [END] pending has the invariant. -/
theorem idleEnd_inv (calls : List HostEvent) : (idleEnd calls).Inv where
  arenaCanonical := rfl
  arenaInside := rfl
  capacity := Nat.zero_le _
  requirement := Nat.zero_le _
  programLength := Nat.zero_le _
  poolLength := Nat.zero_le _
  stepCeiling := Nat.zero_le _
  pcRange := Nat.zero_le _
  causeCodes := Nat.zero_le _
  loadCodes := Nat.zero_le _
  allocCodes := Nat.zero_le _
  runningBlock := fun h => (by cases h)
  noResultYet := fun h => (by cases h)
  noCallHeld := fun _ => rfl
  pendingAccepted := fun p h => (by cases h; exact validate_end)

/-- LoadValidWordsAreEncodings, at words with every kind of operand field. -/
theorem witness_LoadValidWordsAreEncodings :
    badOpcode 0x7F7F7F04 = false ∧ badOperand 0x7F7F7F04 = false ∧ storesToLiteral 0x7F7F7F04 = false ∧
    badOpcode 0xFFFFFF10 = false ∧ badOperand 0xFFFFFF10 = false ∧ storesToLiteral 0xFFFFFF10 = false := by decide
/-- IgnoredBitsDoNotMatter, at ids 0 and 9 with ignored bits set. -/
theorem witness_IgnoredBitsDoNotMatter :
    ((0xFFFFFF00 : BitVec 32).extractLsb' 0 6).toNat ≤ 9 ∧ ((0xFFFFFF09 : BitVec 32).extractLsb' 0 6).toNat ≤ 9 := by decide
/-- StepRunsTheDecodedInstruction, at JMP #200. -/
theorem witness_StepRunsTheDecodedInstruction :
    (fetching 0x48010007).FetchesNext (Insn.ofWord 0x48010007) ∧ decode (Insn.ofWord 0x48010007) = .ok (.jmp 200) :=
  ⟨fetching_fetches 0x48010007, rfl⟩
/-- StepTakesTheDecodeFault, once for each cause. -/
theorem witness_StepTakesTheDecodeFault :
    ((fetching 0x40).FetchesNext (Insn.ofWord 0x40) ∧ decode (Insn.ofWord 0x40) = .error .undefinedOpcode) ∧
    ((fetching 0x8002).FetchesNext (Insn.ofWord 0x8002) ∧ decode (Insn.ofWord 0x8002) = .error .illegalOperand) ∧
    ((fetching 0x800004).FetchesNext (Insn.ofWord 0x800004) ∧ decode (Insn.ofWord 0x800004) = .error .storeToLiteral) :=
  ⟨⟨fetching_fetches 0x40, rfl⟩, ⟨fetching_fetches 0x8002, rfl⟩, ⟨fetching_fetches 0x800004, rfl⟩⟩
/-- StepCeilingFaults: a block at the ceiling, and an engine step below it. -/
theorem witness_StepCeilingFaults :
    (∃ s : State, s.runState = .running ∧ s.engineTurn = true ∧ s.steps = Config.maxSteps) ∧
    ∃ s t : State, s.engineTurn = true ∧ s.steps ≤ Config.maxSteps ∧ step s = .next t :=
  ⟨⟨{ runningEnd with steps := Config.maxSteps }, rfl, rfl, rfl⟩, ⟨runningEnd, _, rfl, Nat.zero_le _, rfl⟩⟩
/-- PcOutOfRangeFaults, at pc = PROG_LEN. -/
theorem witness_PcOutOfRangeFaults :
    ∃ s : State, s.runState = .running ∧ s.engineTurn = true ∧ s.steps ≠ Config.maxSteps ∧ s.imem.length ≤ s.pc.toNat :=
  ⟨{ runningEnd with pc := 1 }, rfl, rfl, zero_ne_maxSteps, by decide⟩
/-- IdleKeepsStateUntilProcess: an idle engine step, a step that starts a block, one that ends a block with an output vector, which
the step after it holds no longer, and an idle step with no output count held. -/
theorem witness_IdleKeepsStateUntilProcess :
    (State.reset.runState = .idle ∧ State.reset.engineTurn = true) ∧
    (∃ s t : State, s.runState = .idle ∧ step s = .next t ∧ t.runState = .running) ∧
    (∃ t u : State, step runningEnd = .next t ∧ t.outputs = [zeroVec] ∧ t.nout = 0 ∧ step t = .next u ∧ u.outputs = []) ∧
    ∃ t : State, State.reset.nout = 0 ∧ step State.reset = .next t ∧ t.runState = .idle := by
  refine ⟨⟨rfl, rfl⟩, ⟨idleEnd [⟨0, .process [] 1⟩], _, rfl, rfl, rfl⟩, ⟨(outputStage (runningEnd.ticked.fetched (encode .endOp))), _,
    ?_, rfl, rfl, rfl, rfl⟩, ⟨_, rfl, rfl, rfl⟩⟩
  rw [step_of_engineTurn _ rfl, engineStep_running _ rfl]
  exact (if_neg zero_ne_maxSteps).trans rfl
/-- NoopOnlyAdvances: a NOOP whose ignored bits are set. -/
theorem witness_NoopOnlyAdvances :
    (fetching 0xFFFFFF00).FetchesNext (Insn.ofWord 0xFFFFFF00) ∧ (Insn.ofWord 0xFFFFFF00).opcode = 0 :=
  ⟨fetching_fetches 0xFFFFFF00, rfl⟩
/-- EndCopiesTheOutputs: a register that is an output, at the last index. -/
theorem witness_EndCopiesTheOutputs : (127 : RegIdx).toNat < ({ State.reset with nout := 128 } : State).nout := by decide
/-- LoadReadsArenaOrLiteral: the last arena address of S + K = 3, and the last literal. -/
theorem witness_LoadReadsArenaOrLiteral :
    (2 : Addr).toNat < smallArena.stateVecs.toNat + smallArena.scratchVecs.toNat ∧
    smallArena.lit[(0 : Addr).toNat]? = some 0x3F800000 := by decide
/-- LoadOutOfRangeFaults: the first address past each. -/
theorem witness_LoadOutOfRangeFaults :
    smallArena.stateVecs.toNat + smallArena.scratchVecs.toNat ≤ (3 : Addr).toNat ∧
    smallArena.lit.length ≤ (1 : Addr).toNat := by decide
/-- StoreWritesOneArenaVector: the first and the last address of S + K = 3. -/
theorem witness_StoreWritesOneArenaVector :
    (0 : Addr).toNat < smallArena.stateVecs.toNat + smallArena.scratchVecs.toNat ∧
    (2 : Addr).toNat < smallArena.stateVecs.toNat + smallArena.scratchVecs.toNat ∧ smallArena.arena.wf = true :=
  ⟨by decide, by decide, rfl⟩
/-- StoreDestinationIsChecked: the first address past S + K, a literal pair, and the last address inside. -/
theorem witness_StoreDestinationIsChecked :
    smallArena.stateVecs.toNat + smallArena.scratchVecs.toNat ≤ (3 : Addr).toNat ∧
    ((fetching 0x800004).FetchesNext (Insn.ofWord 0x800004) ∧ (0x800004 : BitVec 32).extractLsb' 0 8 = 4 ∧
      (0x800004 : BitVec 32).getLsbD 15 = false ∧ (0x800004 : BitVec 32).getLsbD 23 = true) ∧
    (2 : Addr).toNat < smallArena.stateVecs.toNat + smallArena.scratchVecs.toNat :=
  ⟨by decide, ⟨fetching_fetches 0x800004, by decide, by decide, by decide⟩, by decide⟩
/-- BneBranchesWhenEqIsZero: both values of EQ. -/
theorem witness_BneBranchesWhenEqIsZero :
    State.reset.eq = false ∧ ({ State.reset with eq := true } : State).eq = true := ⟨rfl, rfl⟩
/-- ReservedOperationsFault: the first and the last of the seven. -/
theorem witness_ReservedOperationsFault :
    Instr.shift 1 2 3 ∈ [Instr.shift 1 2 3, .interp 1 2 3, .svf 1 2 3, .test1 1 2 3, .test2 1 2 3, .move1 1 2 3, .load1 1 2 3] ∧
    Instr.load1 1 2 3 ∈ [Instr.shift 1 2 3, .interp 1 2 3, .svf 1 2 3, .test1 1 2 3, .test2 1 2 3, .move1 1 2 3, .load1 1 2 3] := by
  decide
/-- FaultsArePrecise: a step that faults before the fetch, and one that faults after it. -/
theorem witness_FaultsArePrecise :
    (∃ s t : State, s.runState = .running ∧ s.engineTurn = true ∧ step s = .next t ∧ t.runState = .idle ∧ t.status = 1 ∧
      t.pc = s.pc) ∧
    ∃ s t : State, s.runState = .running ∧ s.engineTurn = true ∧ step s = .next t ∧ t.runState = .idle ∧ t.status = 1 ∧
      t.pc = s.pc + 1 :=
  ⟨⟨{ runningEnd with pc := 1 }, _, rfl, rfl, rfl, rfl, rfl, rfl⟩, ⟨fetching 0xA, _, rfl, rfl, rfl, rfl, rfl, rfl⟩⟩
/-- StepKeepsInv: a running block. -/
theorem witness_StepKeepsInv : ∃ s t : State, s.Inv ∧ s.runState = .running ∧ step s = .next t :=
  ⟨runningEnd, _, runningEnd_inv, rfl, rfl⟩
/-- The active program [END] is accepted. -/
theorem runningEnd_accepted : runningEnd.ActiveAccepted := fun _ => validate_end
/-- StepKeepsTheActiveProgramAccepted and AcceptedProgramsFaultOnlyThreeWays: a running block with an active program. -/
theorem witness_AcceptedPrograms :
    ∃ s t : State, s.Inv ∧ s.ActiveAccepted ∧ s.imem ≠ [] ∧ s.runState = .running ∧ s.engineTurn = true ∧ step s = .next t :=
  ⟨runningEnd, _, runningEnd_inv, runningEnd_accepted, by decide, rfl, rfl, rfl⟩
/-- AcceptedProgramsFaultOnlyThreeWays: where two instructions fit, the block of [branch to 1, END] with EQ = 0. -/
theorem witness_TakenBranch (h : 2 ≤ Config.imemDepth) (b : Instr) (hb : b = .jmp 1 ∨ b = .bne 1) :
    ∃ s : State, s.Inv ∧ s.ActiveAccepted ∧ s.FetchesNext (encode b) ∧ s.eq = false := by
  have hv : validate true 0 ⟨[encode b, encode .endOp], [], 0, 0⟩ = .accepted := by
    have hd : ¬ Config.imemDepth < [encode b, encode Instr.endOp].length := Nat.not_lt.2 h
    rcases hb with rfl | rfl <;> simp only [validate, hd, if_false] <;> decide
  exact ⟨{ runningEnd with imem := [encode b, encode .endOp] },
    { runningEnd_inv with
      programLength := h
      runningBlock := fun _ => ⟨rfl, fun e => (by cases e), Nat.le_refl _, (by decide : 1 ≤ 128)⟩ },
    fun _ => hv, ⟨rfl, rfl, zero_ne_maxSteps, rfl⟩, rfl⟩
/-- BlockEndsWithinTheCeiling. -/
theorem witness_BlockEndsWithinTheCeiling : runningEnd.Inv ∧ runningEnd.runState = .running ∧ runningEnd.hostCalls = [] :=
  ⟨runningEnd_inv, rfl, rfl⟩
/-- AcceptedProcessReturns, at the greatest counts. -/
theorem witness_AcceptedProcessReturns :
    ∃ (s : State) (inputs : List Vec), s.Inv ∧ s.runState = .idle ∧ s.allocated = true ∧ s.pending ≠ none ∧
      inputs.length = 128 ∧ s.hostCalls = [⟨0, .process inputs 128⟩] :=
  ⟨idleEnd [⟨0, .process (List.replicate 128 zeroVec) 128⟩], List.replicate 128 zeroVec, idleEnd_inv _, rfl, rfl,
    fun h => (by cases h), List.length_replicate, rfl⟩
/-- OnlyCmpWritesEq: a CMP that changes EQ. -/
theorem witness_OnlyCmpWritesEq :
    ∃ (i : Instr) (s t : State), exec i s = .next t ∧ t.eq ≠ s.eq := by
  obtain ⟨⟨t, h, he⟩, -⟩ := test_exec_cmp
  exact ⟨_, State.reset, t, h, by rw [he]; decide⟩
/-- OnlyBranchesWritePc: a JMP that changes pc. -/
theorem witness_OnlyBranchesWritePc : ∃ (i : Instr) (s t : State), exec i s = .next t ∧ t.pc ≠ s.pc :=
  ⟨.jmp 200, State.reset, _, rfl, by decide⟩
/-- OnlyNamedInstructionsWriteData: a STORE that changes the arena, and a MOVE that changes a register. -/
theorem witness_OnlyNamedInstructionsWriteData :
    (∃ (i : Instr) (s t : State), exec i s = .next t ∧ t.arena ≠ s.arena) ∧
    ∃ (i : Instr) (s t : State) (r : RegIdx), exec i s = .next t ∧ t.readReg r ≠ s.readReg r := by
  constructor
  · obtain ⟨⟨t, h, hr⟩, -⟩ := test_exec_store
    refine ⟨_, _, t, h, fun he => ?_⟩
    rw [he] at hr
    exact broadcast_ne_zeroVec 1 (by decide) hr.symm
  · refine ⟨.move 1 (.imm 1), State.reset, _, 1, rfl, ?_⟩
    rw [State.readReg_writeReg_same]
    exact broadcast_ne_zeroVec (immValue 1) (by decide)
/-- InstructionsStayInTheirReach, with an address at S + K. -/
theorem witness_InstructionsStayInTheirReach :
    ∃ t, exec (.store 3 2) smallArena = .next t ∧ smallArena.stateVecs.toNat + smallArena.scratchVecs.toNat ≤ 3 :=
  ⟨_, rfl, by decide⟩
/-- UnreachableArenaIsNotObserved: two arenas that differ at address S + K alone. -/
theorem witness_UnreachableArenaIsNotObserved :
    ∃ s u t : State, s.engineTurn = true ∧ s.arena.wf = true ∧ u.arena.wf = true ∧ u = { s with arena := u.arena } ∧
      u.arena ≠ s.arena ∧ (∀ a, a < s.stateVecs.toNat + s.scratchVecs.toNat → u.arena.read a = s.arena.read a) ∧
      step s = .next t := by
  have h1 := broadcast_ne_zeroVec 1 (by decide)
  refine ⟨fetching 0, { fetching 0 with arena := [(0, broadcast 1)] }, _, rfl, rfl, ?_, rfl, ?_, ?_, rfl⟩
  · simp [Memory.wf]
    exact h1
  · exact List.cons_ne_nil _ _
  · intro a ha
    exact absurd ha (Nat.not_lt_zero a)
/-- AllocateMemoryOutcomes: running; past ARENA_MAX; the same total again; a first allocation; another total. -/
theorem witness_AllocateMemoryOutcomes :
    runningEnd.runState = .running ∧ State.reset.runState = .idle ∧ Config.arenaMax < (Config.arenaMax + 1) + 0 ∧
    ((idleEnd []).allocated = true ∧ 0 + 0 = (idleEnd []).arenaCap.toNat) ∧ (0 + 0 ≤ Config.arenaMax) ∧
    State.reset.allocated = false ∧ 0 + 0 ≠ ({ idleEnd [] with arenaCap := 1 } : State).arenaCap.toNat :=
  ⟨rfl, rfl, Nat.lt_succ_self _, ⟨rfl, rfl⟩, Nat.zero_le _, rfl, by decide⟩
/-- SetProgramFillsThePendingBuffer: an accepted and a rejected program. -/
theorem witness_SetProgramFillsThePendingBuffer :
    validate (idleEnd []).allocated (idleEnd []).arenaCap.toNat ⟨[encode .endOp], [], 0, 0⟩ = .accepted ∧
    validate (idleEnd []).allocated (idleEnd []).arenaCap.toNat ⟨[], [], 0, 1⟩ ≠ .accepted := by
  refine ⟨validate_end, ?_⟩
  have h : ¬ Config.imemDepth < 0 := Nat.not_lt_zero _
  simp only [validate, List.length_nil, h, if_false]
  decide
/-- ValidationAcceptsExactlyWellFormedPrograms: a program for each code of R113, most of one word, or none. -/
theorem witness_LoadCodes :
    let s : State := { State.reset with allocated := true, arenaCap := 4 }
    let one (w : BitVec 32) : Program := ⟨[Insn.ofWord w], [], 3, 1⟩
    (setProgram (one 1) s).loadStatus = 0 ∧ (setProgram (one 1) State.reset).loadStatus = 1 ∧
    (setProgram ⟨List.replicate (Config.imemDepth + 1) (encode .endOp), [], 0, 0⟩ s).loadStatus = 2 ∧
    (setProgram ⟨[], List.replicate 16385 0, 0, 0⟩ s).loadStatus = 3 ∧ (setProgram ⟨[], [], 3, 2⟩ s).loadStatus = 4 ∧
    (setProgram (one 0x40) s).loadStatus = 5 ∧ (setProgram (one 0x8002) s).loadStatus = 6 ∧
    (setProgram (one 0x800004) s).loadStatus = 7 ∧ (setProgram (one 0x04000103) s).loadStatus = 8 ∧
    (setProgram (one 0x00800103) s).loadStatus = 9 ∧ (setProgram (one 0x01000007) s).loadStatus = 10 ∧
    (setProgram (one 0x00810002) s).loadStatus = 11 := by
  have h0 : ¬ Config.imemDepth < 0 := Nat.not_lt_zero _
  have h1 : ¬ Config.imemDepth < 1 := by simp [Config.imemDepth]
  refine ⟨?_, rfl, ?_, ?_, ?_, ?_, ?_, ?_, ?_, ?_, ?_, ?_⟩
  · simp only [setProgram, validate, List.length_singleton, h1, if_false]; decide
  · simp [setProgram, validate, loadCode]
  · have h3 : poolLimit < (List.replicate 16385 (0 : B32)).length := by rw [List.length_replicate]; decide
    generalize List.replicate 16385 (0 : B32) = l at h3
    simp [setProgram, validate, loadCode, h3]
  · simp only [setProgram, validate, List.length_nil, h0, if_false]; decide
  all_goals simp only [setProgram, validate, List.length_singleton, h1, if_false]; decide
/-- ProcessRefusals: each ground of NOT_READY and each of BAD_IO. -/
theorem witness_ProcessRefusals :
    runningEnd.runState = .running ∧ State.reset.allocated = false ∧
    (State.reset.imem = [] ∧ State.reset.pending = none) ∧
    ((idleEnd []).runState = .idle ∧ (idleEnd []).allocated = true ∧ (idleEnd []).pending ≠ none) ∧
    128 < (129 : Nat) ∧ 128 < (List.replicate 129 zeroVec).length :=
  ⟨rfl, rfl, ⟨rfl, rfl⟩, ⟨rfl, rfl, fun h => (by cases h)⟩, by decide, by rw [List.length_replicate]; decide⟩
/-- InputStageFillsLowRegisters: 128 inputs, the last of them, and with no input a register that is kept. -/
theorem witness_InputStageFillsLowRegisters :
    (idleEnd []).runState = .idle ∧ (idleEnd []).allocated = true ∧ (idleEnd []).pending ≠ none ∧
    (List.replicate 128 zeroVec).length ≤ 128 ∧ (List.replicate 128 zeroVec)[(127 : RegIdx).toNat]? = some zeroVec ∧
    ([] : List Vec).length ≤ (0 : RegIdx).toNat :=
  ⟨rfl, rfl, fun h => (by cases h), by rw [List.length_replicate], by rw [List.getElem?_replicate]; rfl, Nat.zero_le _⟩
/-- PendingProgramIsInstalledAtBlockStart and BlockStartResets: with a program pending, and with an active one alone. -/
theorem witness_BlockStart :
    ((idleEnd []).Inv ∧ (idleEnd []).runState = .idle ∧ (idleEnd []).allocated = true ∧ (idleEnd []).pending ≠ none) ∧
    ∃ s : State, s.Inv ∧ s.runState = .idle ∧ s.allocated = true ∧ s.imem ≠ [] ∧ s.pending = none := by
  refine ⟨⟨idleEnd_inv [], rfl, rfl, fun h => (by cases h)⟩, { runningEnd with runState := .idle, nout := 0 }, ?_, rfl, rfl, by decide,
    rfl⟩
  exact { runningEnd_inv with runningBlock := fun h => (by cases h), noResultYet := fun h => (by cases h), noCallHeld := fun _ => rfl }
/-- BlockStartResets: where the capacity admits three vectors, a block with two state vectors and one scratch vector, so that each
of the three arena clauses has addresses. -/
theorem witness_BlockStartArena (h : 3 ≤ Config.arenaMax) :
    ∃ s : State, s.Inv ∧ s.runState = .idle ∧ s.allocated = true ∧ s.imem ≠ [] ∧ s.stateVecs = 2 ∧ s.scratchVecs = 1 :=
  ⟨{ runningEnd with runState := .idle, nout := 0, arenaCap := 3, stateVecs := 2, scratchVecs := 1 },
    { runningEnd_inv with
      arenaInside := rfl, capacity := h, requirement := Nat.le_refl 3
      runningBlock := fun h => (by cases h), noResultYet := fun h => (by cases h), noCallHeld := fun _ => rfl
      pendingAccepted := fun p h => (by cases h) },
    rfl, rfl, by decide, rfl, rfl⟩
/-- HostCallsDoNotDisturbARunningBlock: an allocation, a process call and an accepted setProgram that arrive during a
block. -/
theorem witness_HostCallsDoNotDisturbARunningBlock :
    (∃ s t : State, s.runState = .running ∧ s.hostCalls = [⟨0, .allocateMemory 1 0⟩] ∧ step s = .next t) ∧
    (∃ s t : State, s.runState = .running ∧ s.hostCalls = [⟨0, .process [] 1⟩] ∧ step s = .next t) ∧
    ∃ (s t : State) (p : Program), s.runState = .running ∧ s.hostCalls = [⟨0, .setProgram p⟩] ∧ step s = .next t ∧
      t.pending = some p :=
  ⟨⟨{ runningEnd with hostCalls := [⟨0, .allocateMemory 1 0⟩] }, _, rfl, rfl, rfl⟩,
    ⟨{ runningEnd with hostCalls := [⟨0, .process [] 1⟩] }, _, rfl, rfl, rfl⟩,
    ⟨{ runningEnd with hostCalls := [⟨0, .setProgram ⟨[encode .endOp], [], 0, 0⟩⟩] }, _, ⟨[encode .endOp], [], 0, 0⟩, rfl, rfl, rfl,
      if_pos (e := none) validate_end⟩⟩
/-- StatusRegisterLayout. -/
theorem witness_StatusRegisterLayout : runningEnd.Inv := runningEnd_inv
/-- PowerOnAcceptsOnlyAllocation: an allocation within ARENA_MAX. -/
theorem witness_PowerOnAcceptsOnlyAllocation : 0 + 0 ≤ Config.arenaMax := Nat.zero_le _
/-- RoundingIsNearestTiesToEven: a tie below infinity, and an overflow. -/
theorem witness_RoundingIsNearestTiesToEven :
    0 < 2 ∧ B32.roundUnits 3 2 = 2 ∧ B32.roundUnits 3 2 < B32.infBits ∧ B32.roundUnits ((2 ^ 25 - 1) * 2 ^ 252) 1 = B32.infBits := by
  refine ⟨?_, ?_, ?_, ?_⟩ <;> decide
/-- RoundingIsNearestTiesToEven: finite operands with a sum that is not 0 and with one that is, and a NaN. -/
theorem witness_RoundedSums :
    (B32.isFinite 0x40A00000 = true ∧ B32.isFinite 0x3F800000 = true ∧ B32.value 0x40A00000 + B32.value 0x3F800000 ≠ 0) ∧
    (B32.isFinite 0x80000000 = true ∧ B32.value 0x80000000 + B32.value 0x80000000 = 0) ∧ B32.isNaN 0x7FC00000 = true := by
  decide
/-- AddNaNExactly and MulNaNExactly: NaN results, with the operands of V6 and V7. -/
theorem witness_NaNExactly :
    (faddDefault 0x7F800000 0xFF800000).isNaN = true ∧ (fmulDefault 0x00000000 0x7F800000).isNaN = true := by
  have ha : ∀ f nan, B32.addRne f nan 0x7F800000 0xFF800000 = nan := by intro f nan; cases f <;> rfl
  have hm : ∀ f nan, B32.mulRne f nan 0x00000000 0x7F800000 = nan := by intro f nan; cases f <;> rfl
  constructor
  · rw [faddDefault, ha]; exact Config.nanResult_isNaN _ _ _
  · rw [fmulDefault, hm]; exact Config.nanResult_isNaN _ _ _
/-- MulByOneIsIdentity, SumWithOppositeIsPositiveZero and FlushToZeroRemovesSubnormals: a subnormal, an infinity, a NaN. -/
theorem witness_LaneIdentities :
    (1 : B32).isNaN = false ∧ B32.isNaN 0xFF800000 = false ∧ B32.isFinite 0x807FFFFF = true ∧ B32.isNaN 0x7FC00000 = true := by
  decide
/-- AssembledProgramsAreWellFormed: an assembly that succeeds, with an arena address. -/
theorem witness_AssembledProgramsAreWellFormed :
    ∃ text p dropped, assemble text = .program p dropped ∧ p.insns ≠ [] ∧ p.stateVecs = 131 :=
  ⟨_, _, _, test_asm_memory, by decide, rfl⟩

end Sys2Proof.Tests
end

section
/-! The word view of an instruction (30_encoding R39): its value by bytes, and the byte at each bit position. -/

namespace Sys2Proof

/-- Appending puts the high part above the low one: the value in base 2^n. -/
theorem toNat_append_eq_add {m n : Nat} (hi : BitVec m) (lo : BitVec n) :
    (hi ++ lo).toNat = 2 ^ n * hi.toNat + lo.toNat := by
  rw [BitVec.toNat_append, ← Nat.shiftLeft_add_eq_or_of_lt lo.isLt, Nat.shiftLeft_eq, Nat.mul_comm]

theorem Insn.word_toNat (b : Insn) :
    b.word.toNat = b.opcode.toNat + 2 ^ 8 * b.dest.toNat + 2 ^ 16 * b.src1.toNat + 2 ^ 24 * b.src2.toNat := by
  simp only [Insn.word, toNat_append_eq_add]
  ring

@[simp] theorem Insn.word_bits_opcode (b : Insn) : b.word.extractLsb' 0 8 = b.opcode :=
  BitVec.extractLsb'_append_eq_right

@[simp] theorem Insn.word_bits_dest (b : Insn) : b.word.extractLsb' 8 8 = b.dest := by
  rw [Insn.word, BitVec.extractLsb'_append_eq_of_le (Nat.le_refl 8)]
  exact BitVec.extractLsb'_append_eq_right

@[simp] theorem Insn.word_bits_src1 (b : Insn) : b.word.extractLsb' 16 8 = b.src1 := by
  rw [Insn.word, BitVec.extractLsb'_append_eq_of_le (by decide), BitVec.extractLsb'_append_eq_of_le (Nat.le_refl 8)]
  exact BitVec.extractLsb'_append_eq_right

@[simp] theorem Insn.word_bits_src2 (b : Insn) : b.word.extractLsb' 24 8 = b.src2 := by
  rw [Insn.word, BitVec.extractLsb'_append_eq_of_le (by decide), BitVec.extractLsb'_append_eq_of_le (by decide)]
  exact BitVec.extractLsb'_append_eq_left

@[simp] theorem Insn.ofWord_word (b : Insn) : Insn.ofWord b.word = b := by
  simp only [Insn.ofWord, Insn.word_bits_opcode, Insn.word_bits_dest, Insn.word_bits_src1, Insn.word_bits_src2]

/-- Settles O6: the value by bytes, and each byte back from its bit positions. -/
theorem wordViewIsLittleEndian : Obligations.WordViewIsLittleEndian :=
  fun b => ⟨b.word_toNat, b.ofWord_word⟩

end Sys2Proof
end

section
/-! Exact integers in binary32 (30_encoding R45). A normal magnitude is m * 2^k units with a significand 2^23 ≤ m < 2^24; its bits
are k * 2^23 + m, the significand's leading one carrying into the exponent field. Rounding leaves it as it is, and every positive
integer below 2^24 is one. -/

namespace Sys2Proof

/-- A number of units with a 24-bit significand is not changed by rounding, up to overflow. -/
theorem B32.roundUnits_significand {m : Nat} (hlo : 2 ^ 23 ≤ m) (hhi : m < 2 ^ 24) (k : Nat) :
    B32.roundUnits (m * 2 ^ k) 1 = min (k * 2 ^ 23 + m) B32.infBits := by
  have hpos : 0 < 2 ^ k := Nat.two_pow_pos k
  have hlog : (m * 2 ^ k).log2 = 23 + k := by
    rw [Nat.log2_eq_iff (Nat.mul_ne_zero (by omega) hpos.ne'), show 23 + k + 1 = 24 + k by omega, Nat.pow_add, Nat.pow_add]
    exact ⟨Nat.mul_le_mul_right _ hlo, Nat.mul_lt_mul_of_pos_right hhi hpos⟩
  have hnotUp : ¬ (2 ^ k < 2 * 0 ∨ (2 ^ k = 2 * 0 ∧ m % 2 = 1)) := by omega
  simp only [B32.roundUnits, Nat.div_one, hlog, Nat.add_sub_cancel_left, Nat.one_mul, Nat.mul_mod_left,
    Nat.mul_div_cancel m hpos, if_neg hnotUp]

/-- The normal pattern of significand m and scale k: its magnitude is m * 2^k units. -/
theorem B32.pack_significand (neg : Bool) {m k : Nat} (hlo : 2 ^ 23 ≤ m) (hhi : m < 2 ^ 24) (hk : k ≤ 253) :
    (B32.pack neg (k * 2 ^ 23 + m)).isFinite = true ∧ (B32.pack neg (k * 2 ^ 23 + m)).isNeg = neg ∧
      (B32.pack neg (k * 2 ^ 23 + m)).units = m * 2 ^ k := by
  obtain ⟨hneg, hexpo, hfrac⟩ := B32.pack_fields neg (k * 2 ^ 23 + m) (by omega)
  have he : (k * 2 ^ 23 + m) / 2 ^ 23 = k + 1 := by omega
  have hf : 2 ^ 23 + (k * 2 ^ 23 + m) % 2 ^ 23 = m := by omega
  refine ⟨?_, hneg, ?_⟩
  · simp only [B32.isFinite, hexpo, he, bne_iff_ne]
    omega
  · simp only [B32.units, hexpo, hfrac, he, hf, Nat.add_sub_cancel, if_neg (Nat.succ_ne_zero k)]

/-- A positive integer below 2^24 has a 24-bit significand, at scale 126 plus its logarithm. -/
theorem integer_eq_significand {n : Nat} (hpos : n ≠ 0) (hn : n < 2 ^ 24) :
    ∃ m k, 2 ^ 23 ≤ m ∧ m < 2 ^ 24 ∧ k ≤ 149 ∧ n * 2 ^ 149 = m * 2 ^ k := by
  have hlog : n.log2 < 24 := (Nat.log2_lt hpos).2 hn
  have hscale : 0 < 2 ^ (23 - n.log2) := Nat.two_pow_pos _
  refine ⟨n * 2 ^ (23 - n.log2), 126 + n.log2, ?_, ?_, by omega, ?_⟩
  · calc 2 ^ 23 = 2 ^ n.log2 * 2 ^ (23 - n.log2) := by rw [← Nat.pow_add]; congr 1; omega
      _ ≤ n * 2 ^ (23 - n.log2) := Nat.mul_le_mul_right _ (Nat.log2_self_le hpos)
  · calc n * 2 ^ (23 - n.log2) < 2 ^ (n.log2 + 1) * 2 ^ (23 - n.log2) :=
          Nat.mul_lt_mul_of_pos_right Nat.lt_log2_self hscale
      _ = 2 ^ 24 := by rw [← Nat.pow_add]; congr 1; omega
  · rw [Nat.mul_assoc, ← Nat.pow_add]
    congr 2
    omega

/-- Every integer below 2^24, with either sign, is exact in binary32: rounding its units gives a finite pattern of that magnitude. -/
theorem B32.pack_roundUnits_integer (neg : Bool) {n : Nat} (hn : n < 2 ^ 24) :
    (B32.pack neg (B32.roundUnits (n * 2 ^ 149) 1)).isFinite = true ∧
      (B32.pack neg (B32.roundUnits (n * 2 ^ 149) 1)).isNeg = neg ∧
      (B32.pack neg (B32.roundUnits (n * 2 ^ 149) 1)).units = n * 2 ^ 149 := by
  by_cases h0 : n = 0
  · subst h0
    cases neg <;> decide
  · obtain ⟨m, k, hlo, hhi, hk, heq⟩ := integer_eq_significand h0 hn
    have hbits : k * 2 ^ 23 + m ≤ B32.infBits := by simp only [B32.infBits]; omega
    rw [heq, B32.roundUnits_significand hlo hhi, Nat.min_eq_left hbits]
    exact B32.pack_significand neg hlo hhi (by omega)

/-- The immediate of index n is finite, not negative, and n units of 1. -/
theorem immValue_fields (n : BitVec 7) :
    (immValue n).isFinite = true ∧ (immValue n).isNeg = false ∧ (immValue n).units = n.toNat * 2 ^ 149 :=
  B32.pack_roundUnits_integer false (n.isLt.trans (by decide))

theorem immValue_value (n : BitVec 7) : (immValue n).value = n.toNat * 2 ^ 149 := by
  obtain ⟨-, hneg, hunits⟩ := immValue_fields n
  simp only [B32.value, hneg, hunits, Bool.false_eq_true, if_false]
  push_cast
  rfl

/-- Settles O50: an index is an integer below 2^24, so its immediate is exact; the four patterns of R45 are evaluated. -/
theorem immediatesAreExact : Obligations.ImmediatesAreExact := by
  refine ⟨fun n => ?_, by decide⟩
  obtain ⟨hfinite, hneg, -⟩ := immValue_fields n
  exact ⟨hfinite, hneg, immValue_value n⟩

end Sys2Proof
end

section
/-! The dispatch loop before the fetch (40_dispatch R65, R66): the two faults that fetch nothing, and the bound they keep on STEPS. -/

namespace Sys2Proof.Machine

/-- A fault raised before the fetch is the entry of R99 with pc as its pc_cur and the word 0. -/
theorem raiseBeforeFetch_faultEntered (c : FaultCause) (s : State) :
    FaultEntered (faultCode c) s.pc 0 s (raiseBeforeFetch c s) where
  cause := rfl
  faultPc := rfl
  faultInsn := rfl
  silence := rfl
  status := rfl
  idle := rfl
  released := rfl
  rest := rfl

theorem step_of_running (s : State) (hrun : s.runState = .running) (hturn : s.engineTurn = true) :
    step s = instructionStep s.ticked := by
  rw [step_of_engineTurn s hturn, engineStep_running s.ticked hrun]

/-- R65: the ceiling is looked at before anything else. -/
theorem instructionStep_of_ceiling (s : State) (hsteps : s.steps = Config.maxSteps) :
    instructionStep s = .next (raiseBeforeFetch .stepLimit s) := by
  rw [instructionStep, if_pos hsteps]

/-- R66: below the ceiling, pc is looked at before the fetch. -/
theorem instructionStep_of_pcOutOfRange (s : State) (hsteps : s.steps ≠ Config.maxSteps)
    (hpc : s.imem.length ≤ s.pc.toNat) : instructionStep s = .next (raiseBeforeFetch .pcOutOfRange s) := by
  rw [instructionStep, if_neg hsteps, List.getElem?_eq_none hpc]

/-- No meaning counts a step: STEPS is the fetch's (R67). -/
theorem exec_steps (i : Instr) (s t : State) (h : exec i s = .next t) : t.steps = s.steps := by
  rcases exec_cases i s with he | ⟨r, v, he⟩ | ⟨a, v, -, he⟩ | ⟨b, he⟩ | ⟨target, he⟩ | he | ⟨c, he⟩ <;>
    cases he.symm.trans h <;> rfl

/-- One turn of the dispatch loop that starts within the ceiling ends within it: only a fetch counts, and it needs STEPS below. -/
theorem instructionStep_steps_le (s t : State) (hle : s.steps ≤ Config.maxSteps) (h : instructionStep s = .next t) :
    t.steps ≤ Config.maxSteps := by
  rcases instructionStep_cases s with ⟨-, he⟩ | ⟨-, -, he⟩ | ⟨hne, b, -, c, -, he⟩ | ⟨hne, b, -, i, -, he⟩
  · cases he.symm.trans h
    exact hle
  · cases he.symm.trans h
    exact hle
  · cases he.symm.trans h
    exact Nat.lt_of_le_of_ne hle hne
  · rw [exec_steps i (s.fetched b) t (he.symm.trans h)]
    exact Nat.lt_of_le_of_ne hle hne

theorem engineStep_steps_le (s t : State) (hle : s.steps ≤ Config.maxSteps) (h : engineStep s = .next t) :
    t.steps ≤ Config.maxSteps := by
  cases hrun : s.runState with
  | idle =>
    cases (engineStep_idle s hrun).symm.trans h
    exact hle
  | running => exact instructionStep_steps_le s t hle ((engineStep_running s hrun).symm.trans h)

/-- Settles O10: the ceiling's entry from the equation of the turn, and the bound from what an engine step can be. -/
theorem stepCeilingFaults : Obligations.StepCeilingFaults := by
  refine ⟨fun s hrun hturn hsteps => ?_, fun s t hturn hle h => ?_⟩
  · exact ⟨_, (step_of_running s hrun hturn).trans (instructionStep_of_ceiling s.ticked hsteps), rfl,
      raiseBeforeFetch_faultEntered .stepLimit s.ticked⟩
  · exact engineStep_steps_le s.ticked t hle ((step_of_engineTurn s hturn).symm.trans h)

/-- Settles O11, by the equation of the turn at such a pc. -/
theorem pcOutOfRangeFaults : Obligations.PcOutOfRangeFaults := fun s hrun hturn hsteps hpc =>
  ⟨_, (step_of_running s hrun hturn).trans (instructionStep_of_pcOutOfRange s.ticked hsteps hpc), rfl,
    raiseBeforeFetch_faultEntered .pcOutOfRange s.ticked⟩

end Sys2Proof.Machine
end

section
/-! The process call up to the first fetch (40_dispatch R62, R63): its refusals in their order, and the registers after the input
stage. -/

namespace Sys2Proof.Machine

@[simp] theorem State.programValid_eq_false_iff (s : State) : s.programValid = false ↔ s.imem = [] := by
  simp [State.programValid]

/-! ### Refusals -/

/-- R62, the first three grounds. -/
theorem processRefusal_of_notReady (nin nout : Nat) (s : State)
    (h : s.runState = .running ∨ s.allocated = false ∨ (s.imem = [] ∧ s.pending = none)) :
    processRefusal nin nout s = some statusNotReady := by
  by_cases hrun : s.runState = .running
  · rw [processRefusal, if_pos hrun]
  · by_cases halloc : s.allocated = false
    · rw [processRefusal, if_neg hrun, if_pos halloc]
    · have hprog := (h.resolve_left hrun).resolve_left halloc
      rw [processRefusal, if_neg hrun, if_neg halloc, if_pos (hprog.imp_left s.programValid_eq_false_iff.2)]

/-- R62 on a block that is ready: the counts decide. -/
theorem processRefusal_of_ready (nin nout : Nat) (s : State) (hidle : s.runState = .idle) (halloc : s.allocated = true)
    (hprog : s.imem ≠ [] ∨ s.pending ≠ none) :
    processRefusal nin nout s = if nout = 0 ∨ 128 < nout ∨ 128 < nin then some statusBadIo else none := by
  have hvalid : ¬ (s.imem = [] ∧ s.pending = none) := not_and_or.2 hprog
  simp only [processRefusal, hidle, halloc, State.programValid_eq_false_iff, if_neg hvalid, reduceCtorEq, if_false]
  by_cases hout : nout = 0 ∨ 128 < nout
  · rw [if_pos hout, if_pos (hout.imp_right .inl)]
  · simp only [← or_assoc, hout, false_or, if_false]

theorem process_of_refused (inputs : List Vec) (nout : Nat) (s : State) (code : BitVec 2)
    (h : processRefusal inputs.length nout s = some code) : process inputs nout s = { s with status := code } := by
  rw [process, h]

theorem process_of_accepted (inputs : List Vec) (nout : Nat) (s : State)
    (h : processRefusal inputs.length nout s = none) :
    process inputs nout s = inputStage inputs { (blockStart s).handedOver with nout := nout } := by
  rw [process, h]

/-- Settles O43: the refusal of each ground, and a refused call's one effect. -/
theorem processRefusals : Obligations.ProcessRefusals := by
  refine fun inputs nout s => ⟨fun h => ?_, fun hidle halloc hprog hcounts => ?_⟩
  · exact process_of_refused inputs nout s statusNotReady (processRefusal_of_notReady inputs.length nout s h)
  · refine process_of_refused inputs nout s statusBadIo ?_
    rw [processRefusal_of_ready inputs.length nout s hidle halloc hprog, if_pos hcounts]

/-! ### The registers of an accepted call -/

@[simp] theorem install_regs (s : State) : (install s).regs = s.regs := by
  cases h : s.pending <;> simp [install, h]

@[simp] theorem blockStart_regs (s : State) : (blockStart s).regs = s.regs := install_regs s

/-- The loop of the input stage from register i on: register j has input j - i, where there is one, and else its old contents. -/
theorem inputRegs_getElem (inputs : List Vec) (i j : Nat) (regs : Vector Vec 128) (hj : j < 128) :
    (inputRegs i inputs regs)[j] = if j < i then regs[j] else inputs[j - i]?.getD regs[j] := by
  induction inputs generalizing i regs with
  | nil => simp [inputRegs]
  | cons v rest ih =>
    rw [inputRegs, ih, Vector.getElem_setIfInBounds hj]
    rcases Nat.lt_trichotomy j i with h | h | h
    · simp [h, Nat.lt_succ_of_lt h, h.ne']
    · simp [h]
    · have hsub : j - i = j - (i + 1) + 1 := by omega
      simp [hsub, h.ne, Nat.not_lt.2 h.le, Nat.not_lt.2 (Nat.succ_le_of_lt h)]

/-- Register r after the input stage: input r, or its old contents where there are too few inputs (R63). -/
theorem readReg_inputStage (inputs : List Vec) (s : State) (r : RegIdx) :
    (inputStage inputs s).readReg r = inputs[r.toNat]?.getD (s.readReg r) :=
  inputRegs_getElem inputs 0 r.toNat s.regs r.isLt

/-- Register r after an accepted call: nothing of block start writes one. -/
theorem readReg_process_of_accepted (inputs : List Vec) (nout : Nat) (s : State) (r : RegIdx)
    (h : processRefusal inputs.length nout s = none) :
    (process inputs nout s).readReg r = inputs[r.toNat]?.getD (s.readReg r) := by
  rw [process_of_accepted inputs nout s h, readReg_inputStage]
  simp only [State.readReg, State.handedOver_regs, blockStart_regs]

/-- Settles O44: the call is accepted, and its registers are read off, at an input and past the last one. -/
theorem inputStageFillsLowRegisters : Obligations.InputStageFillsLowRegisters := by
  intro inputs nout s hidle halloc hprog hpos hout hin
  have hcounts : ¬ (nout = 0 ∨ 128 < nout ∨ 128 < inputs.length) := by omega
  have haccepted : processRefusal inputs.length nout s = none := by
    rw [processRefusal_of_ready inputs.length nout s hidle halloc hprog, if_neg hcounts]
  refine ⟨_, rfl, fun r v hv => ?_, fun r hr => ?_⟩
  · rw [readReg_process_of_accepted inputs nout s r haccepted, hv, Option.getD_some]
  · rw [readReg_process_of_accepted inputs nout s r haccepted, List.getElem?_eq_none hr, Option.getD_none]

end Sys2Proof.Machine
end

section
/-! setProgram (70_reset_and_hazards R111): its two outcomes, and what the code of R113 tells about them. -/

namespace Sys2Proof.Machine

/-- R113: 0 is the code of acceptance alone. -/
theorem loadCode_eq_zero_iff (r : LoadResult) : loadCode r = 0 ↔ r = .accepted := by
  cases r <;> decide

theorem setProgram_of_accepted (p : Program) (s : State) (h : validate s.allocated s.arenaCap.toNat p = .accepted) :
    setProgram p s = { s with loadStatus := 0, pending := some p } := by
  rw [setProgram, h, if_pos rfl, (loadCode_eq_zero_iff .accepted).2 rfl]

theorem setProgram_of_rejected (p : Program) (s : State) (h : validate s.allocated s.arenaCap.toNat p ≠ .accepted) :
    setProgram p s = { s with loadStatus := loadCode (validate s.allocated s.arenaCap.toNat p) } := by
  rw [setProgram, if_neg h]

/-- Settles O41: each outcome by its equation, and a rejection's code is not that of acceptance. -/
theorem setProgramFillsThePendingBuffer : Obligations.SetProgramFillsThePendingBuffer := by
  refine fun p s => ⟨setProgram p s, rfl, rfl, fun haccepted => ?_, fun hrejected => ?_⟩
  · rw [setProgram_of_accepted p s haccepted]
    exact ⟨rfl, rfl⟩
  · rw [setProgram_of_rejected p s hrejected]
    exact ⟨rfl, mt (loadCode_eq_zero_iff _).1 hrejected, rfl⟩

end Sys2Proof.Machine
end

section
/-! The decoder by its operation id, and the bytes of operands and pairs (30_encoding R42, R46, R49, R50): encodings decode back. -/

namespace Sys2Proof

open Machine

/-! ### The decoder by operation id (R49, R50) -/

section DecodeById

variable {b : Insn}

theorem decode_of_opMode_ne (hmode : b.opMode ≠ 0) : decode b = .error .undefinedOpcode := by
  rw [decode, if_pos hmode]

theorem decode_of_opId_ge (hid : 17 ≤ b.opId.toNat) : decode b = .error .undefinedOpcode := by
  obtain ⟨n, hn⟩ := Nat.exists_eq_add_of_le' hid
  simp only [decode, hn, ite_self]

theorem decode_noop (hmode : b.opMode = 0) (hid : b.opId.toNat = 0) : decode b = .ok .noop := by
  simp only [decode, hmode, hid, ne_eq, not_true, if_false]

theorem decode_endOp (hmode : b.opMode = 0) (hid : b.opId.toNat = 1) : decode b = .ok .endOp := by
  simp only [decode, hmode, hid, ne_eq, not_true, if_false]

theorem decode_move (hmode : b.opMode = 0) (hid : b.opId.toNat = 2) :
    decode b = withRegister b.dest fun rd => .ok (.move rd (decodeOperand b.src1)) := by
  simp only [decode, hmode, hid, ne_eq, not_true, if_false]

theorem decode_load (hmode : b.opMode = 0) (hid : b.opId.toNat = 3) :
    decode b = withRegister b.dest fun rd => .ok (.load rd (decodeSpace b.src1) (pairAddress b.src1 b.src2)) := by
  simp only [decode, hmode, hid, ne_eq, not_true, if_false]

theorem decode_store (hmode : b.opMode = 0) (hid : b.opId.toNat = 4) :
    decode b = withRegister b.dest fun rs =>
      if decodeMode b.src1 = 0 then .ok (.store rs (pairAddress b.src1 b.src2)) else .error .storeToLiteral := by
  simp only [decode, hmode, hid, ne_eq, not_true, if_false]
  by_cases h : decodeMode b.src1 = 0
  · simp only [decodeSpace, if_pos h]
  · simp only [decodeSpace, if_neg h]

theorem decode_cmp (hmode : b.opMode = 0) (hid : b.opId.toNat = 5) :
    decode b = .ok (.cmp (decodeOperand b.src1) (decodeOperand b.src2)) := by
  simp only [decode, hmode, hid, ne_eq, not_true, if_false]

theorem decode_bne (hmode : b.opMode = 0) (hid : b.opId.toNat = 6) :
    decode b = .ok (.bne (pairAddress b.src1 b.src2)) := by
  simp only [decode, hmode, hid, ne_eq, not_true, if_false]

theorem decode_jmp (hmode : b.opMode = 0) (hid : b.opId.toNat = 7) :
    decode b = .ok (.jmp (pairAddress b.src1 b.src2)) := by
  simp only [decode, hmode, hid, ne_eq, not_true, if_false]

theorem decode_add (hmode : b.opMode = 0) (hid : b.opId.toNat = 8) :
    decode b = withRegister b.dest fun rd => .ok (.add rd (decodeOperand b.src1) (decodeOperand b.src2)) := by
  simp only [decode, hmode, hid, ne_eq, not_true, if_false]

theorem decode_mul (hmode : b.opMode = 0) (hid : b.opId.toNat = 9) :
    decode b = withRegister b.dest fun rd => .ok (.mul rd (decodeOperand b.src1) (decodeOperand b.src2)) := by
  simp only [decode, hmode, hid, ne_eq, not_true, if_false]

theorem decode_shift (hmode : b.opMode = 0) (hid : b.opId.toNat = 10) :
    decode b = .ok (.shift b.dest b.src1 b.src2) := by
  simp only [decode, hmode, hid, ne_eq, not_true, if_false]

theorem decode_interp (hmode : b.opMode = 0) (hid : b.opId.toNat = 11) :
    decode b = .ok (.interp b.dest b.src1 b.src2) := by
  simp only [decode, hmode, hid, ne_eq, not_true, if_false]

theorem decode_svf (hmode : b.opMode = 0) (hid : b.opId.toNat = 12) :
    decode b = .ok (.svf b.dest b.src1 b.src2) := by
  simp only [decode, hmode, hid, ne_eq, not_true, if_false]

theorem decode_test1 (hmode : b.opMode = 0) (hid : b.opId.toNat = 13) :
    decode b = .ok (.test1 b.dest b.src1 b.src2) := by
  simp only [decode, hmode, hid, ne_eq, not_true, if_false]

theorem decode_test2 (hmode : b.opMode = 0) (hid : b.opId.toNat = 14) :
    decode b = .ok (.test2 b.dest b.src1 b.src2) := by
  simp only [decode, hmode, hid, ne_eq, not_true, if_false]

theorem decode_move1 (hmode : b.opMode = 0) (hid : b.opId.toNat = 15) :
    decode b = .ok (.move1 b.dest b.src1 b.src2) := by
  simp only [decode, hmode, hid, ne_eq, not_true, if_false]

theorem decode_load1 (hmode : b.opMode = 0) (hid : b.opId.toNat = 16) :
    decode b = .ok (.load1 b.dest b.src1 b.src2) := by
  simp only [decode, hmode, hid, ne_eq, not_true, if_false]

end DecodeById

theorem encode_opMode (i : Instr) : (encode i).opMode = 0 := by
  cases i <;> simp [Insn.opMode, encode]

/-- The operation id of an encoding is that of its opcode byte (R41). -/
theorem encode_opId (i : Instr) : (encode i).opId.toNat = Laws.operationId i := by
  cases i <;> simp [Insn.opId, encode, Laws.operationId]

/-- Settles O1: the encoding has its operation id, and each operand comes back from its bytes. -/
theorem decodeInvertsEncode : Obligations.DecodeInvertsEncode := by
  intro i
  cases i with
  | noop => exact decode_noop (encode_opMode _) (encode_opId _)
  | endOp => exact decode_endOp (encode_opMode _) (encode_opId _)
  | move rd src => exact (decode_move (encode_opMode _) (encode_opId _)).trans (by simp [encode])
  | load rd space addr => exact (decode_load (encode_opMode _) (encode_opId _)).trans (by simp [encode])
  | store rs addr => exact (decode_store (encode_opMode _) (encode_opId _)).trans (by simp [encode, encodePair, pairAddress])
  | cmp a b => exact (decode_cmp (encode_opMode _) (encode_opId _)).trans (by simp [encode])
  | bne target => exact (decode_bne (encode_opMode _) (encode_opId _)).trans (by simp [encode])
  | jmp target => exact (decode_jmp (encode_opMode _) (encode_opId _)).trans (by simp [encode])
  | add rd a b => exact (decode_add (encode_opMode _) (encode_opId _)).trans (by simp [encode])
  | mul rd a b => exact (decode_mul (encode_opMode _) (encode_opId _)).trans (by simp [encode])
  | shift d a b => exact decode_shift (encode_opMode _) (encode_opId _)
  | interp d a b => exact decode_interp (encode_opMode _) (encode_opId _)
  | svf d a b => exact decode_svf (encode_opMode _) (encode_opId _)
  | test1 d a b => exact decode_test1 (encode_opMode _) (encode_opId _)
  | test2 d a b => exact decode_test2 (encode_opMode _) (encode_opId _)
  | move1 d a b => exact decode_move1 (encode_opMode _) (encode_opId _)
  | load1 d a b => exact decode_load1 (encode_opMode _) (encode_opId _)

/-- Settles O5: each word is evaluated. -/
theorem sampleWordsDecode : Obligations.SampleWordsDecode := by
  unfold Obligations.SampleWordsDecode
  decide

/-! ### Bytes -/

@[simp] theorem encodeOperand_decode (x : Byte) : encodeOperand (decodeMode x) (decodeIndex x) = x :=
  (BitVec.extractLsb'_append_extractLsb'_eq_extractLsb' rfl).trans BitVec.extractLsb'_eq_self

theorem encodeOperand_zero_decodeIndex {x : Byte} (h : decodeMode x = 0) : encodeOperand 0 (decodeIndex x) = x := by
  rw [← h, encodeOperand_decode]

@[simp] theorem encodeOperandByte_decodeOperand (x : Byte) : encodeOperandByte (decodeOperand x) = x := by
  by_cases h : decodeMode x = 0
  · rw [decodeOperand, if_pos h, encodeOperandByte, encodeOperand_zero_decodeIndex h]
  · have h1 : decodeMode x = 1 := (BitVec.eq_zero_or_eq_one _).resolve_left h
    rw [decodeOperand, if_neg h, encodeOperandByte, ← h1, encodeOperand_decode]

@[simp] theorem spaceMode_decodeSpace (x : Byte) : spaceMode (decodeSpace x) = decodeMode x := by
  by_cases h : decodeMode x = 0
  · rw [decodeSpace, if_pos h, h, spaceMode]
  · rw [decodeSpace, if_neg h, (BitVec.eq_zero_or_eq_one _).resolve_left h]
    rfl

@[simp] theorem encodePair_pairAddress (m : BitVec 1) (x y : Byte) :
    encodePair m (pairAddress x y) = (encodeOperand m (decodeIndex x), encodeOperand 0 (decodeIndex y)) := by
  simp [encodePair, pairAddress]

theorem decodeMode_toNat (x : Byte) : (decodeMode x).toNat = x.toNat / 128 := by
  have := x.isLt
  rw [decodeMode, BitVec.extractLsb'_toNat, Nat.shiftRight_eq_div_pow]
  omega

theorem decodeIndex_toNat (x : Byte) : (decodeIndex x).toNat = x.toNat % 128 := by
  rw [decodeIndex, BitVec.extractLsb'_toNat, Nat.shiftRight_zero]

/-- Settles O7: the values are those of an append, and each part comes back from its bits. -/
theorem operandBytesAndPairsRoundTrip : Obligations.OperandBytesAndPairsRoundTrip := by
  refine ⟨fun m i => ⟨?_, decodeMode_encodeOperand m i, decodeIndex_encodeOperand m i⟩,
    fun hi lo => ⟨?_, unpackAddress_packAddress hi lo⟩, fun x => ⟨decodeMode_toNat x, decodeIndex_toNat x⟩⟩
  · simp only [encodeOperand, toNat_append_eq_add]
    omega
  · simp only [packAddress, toNat_append_eq_add]
    omega

theorem withRegister_of_mode_zero {x : Byte} (h : decodeMode x = 0) (k : RegIdx → Except FaultCause Instr) :
    withRegister x k = k (decodeIndex x) := by
  rw [withRegister, if_neg (not_not.2 h)]

theorem withRegister_of_mode_ne {x : Byte} (h : decodeMode x ≠ 0) (k : RegIdx → Except FaultCause Instr) :
    withRegister x k = .error .illegalOperand := by
  rw [withRegister, if_pos h]

end Sys2Proof
end

section
/-! The bit fields of a word and the bytes of its instruction (30_encoding R39, R41): what the load-time masks of 70 R112, the
ignored bits of R51 and the decoder's refusals of R50 and R98 say of each byte. -/

namespace Sys2Proof

open Machine Claims

/-! ### Fields of a word -/

@[simp] theorem Insn.word_ofWord (w : BitVec 32) : (Insn.ofWord w).word = w := by
  simp only [Insn.word, Insn.ofWord]
  rw [BitVec.extractLsb'_append_extractLsb'_eq_extractLsb' (start₂ := 24) (start₁ := 16) rfl,
    BitVec.extractLsb'_append_extractLsb'_eq_extractLsb' (start₂ := 16) (start₁ := 8) rfl,
    BitVec.extractLsb'_append_extractLsb'_eq_extractLsb' (start₂ := 8) (start₁ := 0) rfl]
  exact BitVec.extractLsb'_eq_self

theorem Insn.ofWord_opMode (w : BitVec 32) : (Insn.ofWord w).opMode = w.extractLsb' 6 2 :=
  BitVec.extractLsb'_extractLsb'_of_le (by decide)

theorem Insn.ofWord_opId (w : BitVec 32) : (Insn.ofWord w).opId = w.extractLsb' 0 6 :=
  BitVec.extractLsb'_extractLsb'_of_le (by decide)

theorem decodeMode_eq_zero_iff (x : Byte) : decodeMode x = 0 ↔ x.getLsbD 7 = false := by
  rw [BitVec.getLsbD_eq_extractLsb', decodeMode]
  rcases BitVec.eq_zero_or_eq_one (x.extractLsb' 7 1) with h | h <;> simp [h]

theorem decodeMode_ne_zero_iff (x : Byte) : decodeMode x ≠ 0 ↔ x.getLsbD 7 = true := by
  rw [Ne, decodeMode_eq_zero_iff, Bool.not_eq_false]

theorem Insn.ofWord_dest_mode (w : BitVec 32) : (Insn.ofWord w).dest.getLsbD 7 = w.getLsbD 15 := by
  simp [Insn.ofWord]

theorem Insn.ofWord_src1_mode (w : BitVec 32) : (Insn.ofWord w).src1.getLsbD 7 = w.getLsbD 23 := by
  simp [Insn.ofWord]

/-! ### Which instructions the decoder refuses (R50, R98) -/

theorem error_eq_error_iff {α : Type} {c c' : FaultCause} :
    (Except.error c : Except FaultCause α) = .error c' ↔ c' = c := by
  rw [Except.error.injEq, eq_comm]

/-- A register byte in IMMEDIATE mode is the only refusal of withRegister itself. -/
theorem withRegister_eq_error_iff {x : Byte} {k : RegIdx → Except FaultCause Instr} {c : FaultCause} :
    withRegister x k = .error c ↔
      (decodeMode x ≠ 0 ∧ c = .illegalOperand) ∨ (decodeMode x = 0 ∧ k (decodeIndex x) = .error c) := by
  by_cases h : decodeMode x = 0#1
  · simp [withRegister_of_mode_zero h, h]
  · simp [withRegister_of_mode_ne h, h, error_eq_error_iff, -Except.error.injEq]

/-- Causes 1 to 3, each with the bytes it takes. -/
theorem decode_eq_error_iff (b : Insn) (c : FaultCause) :
    decode b = .error c ↔
      (c = .undefinedOpcode ∧ (b.opMode ≠ 0 ∨ 17 ≤ b.opId.toNat)) ∨
      (c = .illegalOperand ∧ b.opMode = 0 ∧ b.opId.toNat ∈ [2, 3, 4, 8, 9] ∧ decodeMode b.dest ≠ 0) ∨
      (c = .storeToLiteral ∧ b.opMode = 0 ∧ b.opId.toNat = 4 ∧ decodeMode b.dest = 0 ∧ decodeMode b.src1 ≠ 0) := by
  by_cases hmode : b.opMode = 0#2
  swap
  · simp [decode_of_opMode_ne hmode, hmode, error_eq_error_iff, -Except.error.injEq]
  by_cases hge : 17 ≤ b.opId.toNat
  · have hne : b.opId.toNat ∉ [2, 3, 4, 8, 9] ∧ b.opId.toNat ≠ 4 := by simp; omega
    simp [decode_of_opId_ge hge, hge, hne, error_eq_error_iff, -Except.error.injEq]
  have hlt : b.opId.toNat < 17 := Nat.lt_of_not_le hge
  interval_cases hid : b.opId.toNat
  · simp [decode_noop hmode hid, hmode]
  · simp [decode_endOp hmode hid, hmode]
  · simp [decode_move hmode hid, withRegister_eq_error_iff, hmode, and_comm]
  · simp [decode_load hmode hid, withRegister_eq_error_iff, hmode, and_comm]
  · by_cases hsrc : decodeMode b.src1 = 0#1
    · simp [decode_store hmode hid, withRegister_eq_error_iff, hmode, hsrc, and_comm]
    · simp [decode_store hmode hid, withRegister_eq_error_iff, hmode, hsrc, and_comm, error_eq_error_iff,
        -Except.error.injEq]
  · simp [decode_cmp hmode hid, hmode]
  · simp [decode_bne hmode hid, hmode]
  · simp [decode_jmp hmode hid, hmode]
  · simp [decode_add hmode hid, withRegister_eq_error_iff, hmode, and_comm]
  · simp [decode_mul hmode hid, withRegister_eq_error_iff, hmode, and_comm]
  · simp [decode_shift hmode hid, hmode]
  · simp [decode_interp hmode hid, hmode]
  · simp [decode_svf hmode hid, hmode]
  · simp [decode_test1 hmode hid, hmode]
  · simp [decode_test2 hmode hid, hmode]
  · simp [decode_move1 hmode hid, hmode]
  · simp [decode_load1 hmode hid, hmode]

/-- Settles O4: the refusals of the instruction at the word, its mode bits being bits 15 and 23. -/
theorem decodeFaultsExactly : Obligations.DecodeFaultsExactly := by
  intro w c
  rw [decode_eq_error_iff, Insn.ofWord_opMode, Insn.ofWord_opId, decodeMode_ne_zero_iff, decodeMode_ne_zero_iff,
    decodeMode_eq_zero_iff, Insn.ofWord_dest_mode, Insn.ofWord_src1_mode]

/-! ### Masks -/

/-- An instruction with the bits of its bytes outside a mask cleared. -/
def Insn.masked (b m : Insn) : Insn := ⟨b.opcode &&& m.opcode, b.dest &&& m.dest, b.src1 &&& m.src1, b.src2 &&& m.src2⟩

theorem Insn.ofWord_and (w m : BitVec 32) : Insn.ofWord (w &&& m) = (Insn.ofWord w).masked (Insn.ofWord m) := by
  simp only [Insn.ofWord, Insn.masked, BitVec.extractLsb'_and]

theorem Insn.ofWord_injective {v w : BitVec 32} (h : Insn.ofWord v = Insn.ofWord w) : v = w := by
  rw [← Insn.word_ofWord v, h, Insn.word_ofWord]

@[simp] theorem decodeIndex_and_127 (x : Byte) : decodeIndex (x &&& 0x7F#8) = decodeIndex x := by
  revert x; decide

theorem and_128_eq_zero_iff (x : Byte) : x &&& 0x80#8 = 0#8 ↔ decodeMode x = 0#1 := by
  revert x; decide

@[simp] theorem and_255_eq_self (x : Byte) : x &&& 0xFF#8 = x := BitVec.and_allOnes

/-- Settles O3: where the opcode mode is 0, each of the ten operations reads only bytes and indices that its mask keeps. -/
theorem ignoredBitsDoNotMatter : Obligations.IgnoredBitsDoNotMatter := by
  intro w hle
  rw [Insn.ofWord_and, ← Insn.ofWord_opId] at *
  generalize Insn.ofWord w = b at *
  generalize hm : Insn.ofWord (significantBits b.opId.toNat) = m
  have hopcode : m.opcode = 0xFF#8 := by
    rw [← hm]
    interval_cases b.opId.toNat <;> rfl
  have hmasked : (b.masked m).opcode = b.opcode := by rw [Insn.masked, hopcode, and_255_eq_self]
  have hmodes : (b.masked m).opMode = b.opMode := by rw [Insn.opMode, Insn.opMode, hmasked]
  have hids : (b.masked m).opId = b.opId := by rw [Insn.opId, Insn.opId, hmasked]
  by_cases hmode : b.opMode = 0
  swap
  · rw [decode_of_opMode_ne hmode, decode_of_opMode_ne (hmodes.symm ▸ hmode)]
  have hmode' := hmodes.trans hmode
  have hid' := congrArg BitVec.toNat hids
  interval_cases hid : b.opId.toNat <;> subst hm
  · rw [decode_noop hmode hid, decode_noop hmode' hid']
  · rw [decode_endOp hmode hid, decode_endOp hmode' hid']
  · rw [decode_move hmode hid, decode_move hmode' hid']
    simp [Insn.masked, significantBits, Insn.ofWord]
  · rw [decode_load hmode hid, decode_load hmode' hid']
    simp [Insn.masked, significantBits, Insn.ofWord, pairAddress]
  · rw [decode_store hmode hid, decode_store hmode' hid']
    simp [Insn.masked, significantBits, Insn.ofWord, pairAddress]
  · rw [decode_cmp hmode hid, decode_cmp hmode' hid']
    simp [Insn.masked, significantBits, Insn.ofWord]
  · rw [decode_bne hmode hid, decode_bne hmode' hid']
    simp [Insn.masked, significantBits, Insn.ofWord, pairAddress]
  · rw [decode_jmp hmode hid, decode_jmp hmode' hid']
    simp [Insn.masked, significantBits, Insn.ofWord, pairAddress]
  · rw [decode_add hmode hid, decode_add hmode' hid']
    simp [Insn.masked, significantBits, Insn.ofWord]
  · rw [decode_mul hmode hid, decode_mul hmode' hid']
    simp [Insn.masked, significantBits, Insn.ofWord]

/-! ### The load-time checks on the form of a word (70 R112, checks 5 to 7) -/

theorem Insn.word_opMode (b : Insn) : b.word.extractLsb' 6 2 = b.opMode := by
  rw [← Insn.ofWord_opMode, Insn.ofWord_word]

theorem Insn.wordOp_word (b : Insn) : wordOp b.word = b.opId.toNat := by
  rw [wordOp, ← Insn.ofWord_opId, Insn.ofWord_word]

theorem Insn.word_bit23 (b : Insn) : b.word.getLsbD 23 = true ↔ decodeMode b.src1 ≠ 0 := by
  rw [decodeMode_ne_zero_iff, ← Insn.ofWord_src1_mode, Insn.ofWord_word]

/-- Check 5: the opcode mode is 0 and the id is one of R49's. -/
theorem badOpcode_word_eq_false_iff (b : Insn) : badOpcode b.word = false ↔ b.opMode = 0 ∧ b.opId.toNat < 17 := by
  simp [badOpcode, Insn.word_opMode, Insn.wordOp_word]

/-- Check 6, byte by byte. -/
theorem badOperand_word_eq_false_iff (b : Insn) :
    badOperand b.word = false ↔
      (b.opId.toNat ≤ 9 →
        b.masked (Insn.ofWord (operandMask b.opId.toNat)) = Insn.ofWord (BitVec.ofNat 32 b.opId.toNat)) := by
  have hword : ∀ m v : BitVec 32, b.word &&& m = v ↔ b.masked (Insn.ofWord m) = Insn.ofWord v := fun m v => by
    rw [← Function.Injective.eq_iff (f := Insn.ofWord) fun _ _ h => Insn.ofWord_injective h, Insn.ofWord_and,
      Insn.ofWord_word]
  simp [badOperand, Insn.wordOp_word, hword]

/-- Check 7: a STORE's pair is in the arena space. -/
theorem storesToLiteral_word_eq_false_iff (b : Insn) :
    storesToLiteral b.word = false ↔ (b.opId.toNat = 4 → decodeMode b.src1 = 0) := by
  rw [← Bool.not_eq_true, storesToLiteral, Bool.and_eq_true, Insn.word_bit23, beq_iff_eq,
    Insn.wordOp_word, not_and, not_not]

end Sys2Proof
end

section
/-! The words that pass checks 5 to 7 of 70 R112 are the encodings (30_encoding R57). -/

namespace Sys2Proof

open Machine

/-- The form checks of R112 pass on the word of b: checks 5, 6 and 7. -/
def PassesFormChecks (b : Insn) : Prop :=
  badOpcode b.word = false ∧ badOperand b.word = false ∧ storesToLiteral b.word = false

theorem opcode_of_opMode_zero {b : Insn} (hmode : b.opMode = 0) : b.opcode = BitVec.ofNat 8 b.opId.toNat := by
  have happend : b.opMode ++ b.opId = b.opcode :=
    (BitVec.extractLsb'_append_extractLsb'_eq_extractLsb' rfl).trans BitVec.extractLsb'_eq_self
  apply BitVec.eq_of_toNat_eq
  have hlt := b.opId.isLt
  rw [← happend, toNat_append_eq_add, hmode, BitVec.toNat_ofNat, BitVec.ofNat_eq_ofNat,
    BitVec.toNat_zero]
  omega

theorem encode_passesFormChecks (i : Instr) : PassesFormChecks (encode i) := by
  refine ⟨(badOpcode_word_eq_false_iff _).2 ⟨encode_opMode i, ?_⟩, (badOperand_word_eq_false_iff _).2 ?_,
    (storesToLiteral_word_eq_false_iff _).2 ?_⟩
  · rw [encode_opId]
    cases i <;> simp [Laws.operationId]
  · rw [encode_opId]
    cases i <;> simp [Laws.operationId, encode, encodePair, Insn.masked, Insn.ofWord, operandMask, and_128_eq_zero_iff]
  · rw [encode_opId]
    cases i <;> simp [Laws.operationId, encode, encodePair]

/-- Two instructions with the same bytes are the same. -/
theorem Insn.eq_of_bytes {b c : Insn} (hopcode : b.opcode = c.opcode) (hdest : b.dest = c.dest) (hsrc1 : b.src1 = c.src1)
    (hsrc2 : b.src2 = c.src2) : b = c := by
  cases b; cases c; simp_all

theorem encodePair_fst_pairAddress {m : BitVec 1} {x y : Byte} (hx : decodeMode x = m) :
    (encodePair m (pairAddress x y)).1 = x := by
  rw [encodePair_pairAddress, ← hx, encodeOperand_decode]

theorem encodePair_snd_pairAddress (m : BitVec 1) {x y : Byte} (hy : decodeMode y = 0) :
    (encodePair m (pairAddress x y)).2 = y := by
  rw [encodePair_pairAddress, encodeOperand_zero_decodeIndex hy]

/-- Per operation, the bytes that its mask fixes are those of the encoding, and the others are its operands. -/
theorem exists_encode_of_passesFormChecks {b : Insn} (h : PassesFormChecks b) : ∃ i, decode b = .ok i ∧ encode i = b := by
  obtain ⟨hop, hoperand, hstore⟩ := h
  obtain ⟨hmode, hlt⟩ := (badOpcode_word_eq_false_iff b).1 hop
  have hmask := (badOperand_word_eq_false_iff b).1 hoperand
  have hspace := (storesToLiteral_word_eq_false_iff b).1 hstore
  have hopcode := opcode_of_opMode_zero hmode
  clear hop hoperand hstore
  interval_cases hid : b.opId.toNat
  · obtain ⟨hdest, hsrc1, hsrc2⟩ : b.dest = 0 ∧ b.src1 = 0 ∧ b.src2 = 0 := by
      simpa [Insn.masked, Insn.ofWord, operandMask, hopcode] using hmask (by decide)
    exact ⟨_, decode_noop hmode hid, Insn.eq_of_bytes hopcode.symm hdest.symm hsrc1.symm hsrc2.symm⟩
  · obtain ⟨hdest, hsrc1, hsrc2⟩ : b.dest = 0 ∧ b.src1 = 0 ∧ b.src2 = 0 := by
      simpa [Insn.masked, Insn.ofWord, operandMask, hopcode] using hmask (by decide)
    exact ⟨_, decode_endOp hmode hid, Insn.eq_of_bytes hopcode.symm hdest.symm hsrc1.symm hsrc2.symm⟩
  · obtain ⟨hdest, hsrc2⟩ : decodeMode b.dest = 0 ∧ b.src2 = 0 := by
      simpa [Insn.masked, Insn.ofWord, operandMask, hopcode, and_128_eq_zero_iff] using hmask (by decide)
    exact ⟨_, (decode_move hmode hid).trans (withRegister_of_mode_zero hdest _),
      Insn.eq_of_bytes hopcode.symm (encodeOperand_zero_decodeIndex hdest)
      (encodeOperandByte_decodeOperand _) hsrc2.symm⟩
  · obtain ⟨hdest, hsrc2⟩ : decodeMode b.dest = 0 ∧ decodeMode b.src2 = 0 := by
      simpa [Insn.masked, Insn.ofWord, operandMask, hopcode, and_128_eq_zero_iff] using hmask (by decide)
    exact ⟨_, (decode_load hmode hid).trans (withRegister_of_mode_zero hdest _),
      Insn.eq_of_bytes hopcode.symm (encodeOperand_zero_decodeIndex hdest)
      (encodePair_fst_pairAddress (spaceMode_decodeSpace _).symm)
      (encodePair_snd_pairAddress (spaceMode (decodeSpace b.src1)) hsrc2)⟩
  · obtain ⟨hdest, hsrc2⟩ : decodeMode b.dest = 0 ∧ decodeMode b.src2 = 0 := by
      simpa [Insn.masked, Insn.ofWord, operandMask, hopcode, and_128_eq_zero_iff] using hmask (by decide)
    exact ⟨_, (decode_store hmode hid).trans ((withRegister_of_mode_zero hdest _).trans (if_pos (hspace rfl))),
      Insn.eq_of_bytes hopcode.symm (encodeOperand_zero_decodeIndex hdest)
      (encodePair_fst_pairAddress (hspace rfl)) (encodePair_snd_pairAddress 0 hsrc2)⟩
  · have hdest : b.dest = 0 := by
      simpa [Insn.masked, Insn.ofWord, operandMask, hopcode] using hmask (by decide)
    exact ⟨_, decode_cmp hmode hid, Insn.eq_of_bytes hopcode.symm hdest.symm (encodeOperandByte_decodeOperand _)
      (encodeOperandByte_decodeOperand _)⟩
  · obtain ⟨hdest, hsrc1, hsrc2⟩ : b.dest = 0 ∧ decodeMode b.src1 = 0 ∧ decodeMode b.src2 = 0 := by
      simpa [Insn.masked, Insn.ofWord, operandMask, hopcode, and_128_eq_zero_iff] using hmask (by decide)
    exact ⟨_, decode_bne hmode hid, Insn.eq_of_bytes hopcode.symm hdest.symm (encodePair_fst_pairAddress hsrc1)
      (encodePair_snd_pairAddress 0 hsrc2)⟩
  · obtain ⟨hdest, hsrc1, hsrc2⟩ : b.dest = 0 ∧ decodeMode b.src1 = 0 ∧ decodeMode b.src2 = 0 := by
      simpa [Insn.masked, Insn.ofWord, operandMask, hopcode, and_128_eq_zero_iff] using hmask (by decide)
    exact ⟨_, decode_jmp hmode hid, Insn.eq_of_bytes hopcode.symm hdest.symm (encodePair_fst_pairAddress hsrc1)
      (encodePair_snd_pairAddress 0 hsrc2)⟩
  · have hdest : decodeMode b.dest = 0 := by
      simpa [Insn.masked, Insn.ofWord, operandMask, hopcode, and_128_eq_zero_iff] using hmask (by decide)
    exact ⟨_, (decode_add hmode hid).trans (withRegister_of_mode_zero hdest _),
      Insn.eq_of_bytes hopcode.symm (encodeOperand_zero_decodeIndex hdest)
      (encodeOperandByte_decodeOperand _) (encodeOperandByte_decodeOperand _)⟩
  · have hdest : decodeMode b.dest = 0 := by
      simpa [Insn.masked, Insn.ofWord, operandMask, hopcode, and_128_eq_zero_iff] using hmask (by decide)
    exact ⟨_, (decode_mul hmode hid).trans (withRegister_of_mode_zero hdest _),
      Insn.eq_of_bytes hopcode.symm (encodeOperand_zero_decodeIndex hdest)
      (encodeOperandByte_decodeOperand _) (encodeOperandByte_decodeOperand _)⟩
  · exact ⟨_, decode_shift hmode hid, Insn.eq_of_bytes hopcode.symm rfl rfl rfl⟩
  · exact ⟨_, decode_interp hmode hid, Insn.eq_of_bytes hopcode.symm rfl rfl rfl⟩
  · exact ⟨_, decode_svf hmode hid, Insn.eq_of_bytes hopcode.symm rfl rfl rfl⟩
  · exact ⟨_, decode_test1 hmode hid, Insn.eq_of_bytes hopcode.symm rfl rfl rfl⟩
  · exact ⟨_, decode_test2 hmode hid, Insn.eq_of_bytes hopcode.symm rfl rfl rfl⟩
  · exact ⟨_, decode_move1 hmode hid, Insn.eq_of_bytes hopcode.symm rfl rfl rfl⟩
  · exact ⟨_, decode_load1 hmode hid, Insn.eq_of_bytes hopcode.symm rfl rfl rfl⟩

/-- The form checks pass exactly on the encodings of what the decoder reads. -/
theorem passesFormChecks_iff (b : Insn) : PassesFormChecks b ↔ ∃ i, decode b = .ok i ∧ encode i = b := by
  refine ⟨exists_encode_of_passesFormChecks, fun ⟨i, _, hi⟩ => ?_⟩
  rw [← hi]
  exact encode_passesFormChecks i

/-- Settles O2, by the operation that each word with the checks passed has. -/
theorem loadValidWordsAreEncodings : Obligations.LoadValidWordsAreEncodings :=
  fun _ hop hoperand hstore => exists_encode_of_passesFormChecks ⟨hop, hoperand, hstore⟩

end Sys2Proof
end

section
/-! What each instruction does and leaves unchanged (41_data_movement to 44_reserved): the frames of the state operations, then
one statement per instruction. -/

namespace Sys2Proof.Machine

open Claims

/-! ### Frames of the state operations -/

theorem writeReg_onlyRegister (s : State) (rd : RegIdx) (v : Vec) : OnlyRegister rd s (s.writeReg rd v) where
  others r hr := by rw [State.readReg_writeReg, if_neg hr]
  memory _ := rfl
  rest := rfl

theorem writeArena_onlyArena (s : State) (a : Nat) (v : Vec) : OnlyArena a s (s.writeArena a v) where
  others b hb := Memory.read_write_ne s.arena a b v hb
  registers _ := rfl
  rest := rfl

/-- A fault raised after the fetch is the entry of R99 with the pc_cur and the word of the fetch. -/
theorem raiseFault_faultEntered (c : FaultCause) (s : State) :
    FaultEntered (faultCode c) s.pcCur s.insnWord s (raiseFault c s) where
  cause := rfl
  faultPc := rfl
  faultInsn := rfl
  silence := rfl
  status := rfl
  idle := rfl
  released := rfl
  rest := rfl

/-- R69: the resolved operand, lane by lane. -/
theorem resolveValue_getElem (o : Operand) (s : State) (i : Fin Config.vlen) :
    (resolveValue o s)[i] = operandLane o s i := by
  cases o with
  | reg r => rfl
  | imm n => exact broadcast_getElem (immValue n) i i.isLt

/-! ### MOVE, ADD and MUL -/

/-- Settles O15, by the operand's lanes. -/
theorem moveCopiesItsOperand : Obligations.MoveCopiesItsOperand := by
  refine fun rd src s => ⟨s.writeReg rd (resolveValue src s), rfl, fun i => ?_, writeReg_onlyRegister s rd _⟩
  rw [State.readReg_writeReg_same, resolveValue_getElem]

/-- A lanewise operation on two operands, read back from the register it is written to. -/
theorem writeReg_lanewise_getElem (f : B32 → B32 → B32) (rd : RegIdx) (a b : Operand) (s : State) (i : Fin Config.vlen) :
    ((s.writeReg rd (lanewise f (resolveValue a s) (resolveValue b s))).readReg rd)[i] =
      f (operandLane a s i) (operandLane b s i) := by
  rw [State.readReg_writeReg_same, ← resolveValue_getElem, ← resolveValue_getElem]
  exact lanewise_getElem f _ _ i i.isLt

/-- Settles O23: the sources are resolved in the state before the write. -/
theorem addSumsLanewise : Obligations.AddSumsLanewise := fun rd a b s =>
  ⟨_, rfl, writeReg_lanewise_getElem fadd rd a b s, writeReg_onlyRegister s rd _⟩

/-- Settles O24, as ADD with FMUL. -/
theorem mulMultipliesLanewise : Obligations.MulMultipliesLanewise := fun rd a b s =>
  ⟨_, rfl, writeReg_lanewise_getElem fmul rd a b s, writeReg_onlyRegister s rd _⟩

/-! ### LOAD and STORE -/

theorem exec_load_of_ok {space : Space} {addr : Addr} {s : State} {v : Vec} (rd : RegIdx)
    (h : resolveMemoryValue space addr s = .ok v) : exec (.load rd space addr) s = .next (s.writeReg rd v) := by
  simp only [exec, execLoad, h]

theorem exec_load_of_error {space : Space} {addr : Addr} {s : State} {c : FaultCause} (rd : RegIdx)
    (h : resolveMemoryValue space addr s = .error c) : exec (.load rd space addr) s = .next (raiseFault c s) := by
  simp only [exec, execLoad, h]

theorem resolveMemoryValue_arena {addr : Addr} {s : State} (h : addr.toNat < s.arenaBound) :
    resolveMemoryValue .arena addr s = .ok (s.arena.read addr.toNat) := by
  rw [resolveMemoryValue, if_neg (Nat.not_le.2 h)]

theorem resolveMemoryValue_arena_outside {addr : Addr} {s : State} (h : s.arenaBound ≤ addr.toNat) :
    resolveMemoryValue .arena addr s = .error .arenaOutOfRange := by
  rw [resolveMemoryValue, if_pos h]

theorem resolveMemoryValue_literal {addr : Addr} {s : State} {x : B32} (h : s.lit[addr.toNat]? = some x) :
    resolveMemoryValue .literal addr s = .ok (broadcast x) := by
  simp only [resolveMemoryValue, h]

theorem resolveMemoryValue_literal_outside {addr : Addr} {s : State} (h : s.lit.length ≤ addr.toNat) :
    resolveMemoryValue .literal addr s = .error .literalOutOfRange := by
  simp only [resolveMemoryValue, List.getElem?_eq_none h]

/-- Settles O16, in each space. -/
theorem loadReadsArenaOrLiteral : Obligations.LoadReadsArenaOrLiteral := by
  refine ⟨fun rd addr s h => ?_, fun rd addr s x h => ?_⟩
  · exact ⟨_, exec_load_of_ok rd (resolveMemoryValue_arena h), State.readReg_writeReg_same s rd _,
      writeReg_onlyRegister s rd _⟩
  · refine ⟨_, exec_load_of_ok rd (resolveMemoryValue_literal h), fun i => ?_, writeReg_onlyRegister s rd _⟩
    rw [State.readReg_writeReg_same]
    exact broadcast_getElem x i i.isLt

/-- Settles O17, in each space. -/
theorem loadOutOfRangeFaults : Obligations.LoadOutOfRangeFaults :=
  ⟨fun rd _ s h => ⟨_, exec_load_of_error rd (resolveMemoryValue_arena_outside h),
      raiseFault_faultEntered .arenaOutOfRange s, rfl⟩,
    fun rd _ s h => ⟨_, exec_load_of_error rd (resolveMemoryValue_literal_outside h),
      raiseFault_faultEntered .literalOutOfRange s, rfl⟩⟩

theorem exec_store {addr : Addr} {s : State} (rs : RegIdx) (h : addr.toNat < s.arenaBound) :
    exec (.store rs addr) s = .next (s.writeArena addr.toNat (s.readReg rs)) := by
  simp only [exec, execStore, resolveMemoryDestination, if_neg (Nat.not_le.2 h)]

theorem exec_store_outside {addr : Addr} {s : State} (rs : RegIdx) (h : s.arenaBound ≤ addr.toNat) :
    exec (.store rs addr) s = .next (raiseFault .arenaOutOfRange s) := by
  simp only [exec, execStore, resolveMemoryDestination, if_pos h]

/-- Settles O18: a write in the canonical arena is read back and keeps it canonical. -/
theorem storeWritesOneArenaVector : Obligations.StoreWritesOneArenaVector := fun rs addr s h hwf =>
  ⟨_, exec_store rs h, Memory.read_write_same s.arena addr.toNat (s.readReg rs) hwf,
    Memory.wf_write s.arena addr.toNat (s.readReg rs) hwf, writeArena_onlyArena s addr.toNat _⟩

/-! ### NOOP, END, CMP, BNE, JMP and the reserved operations -/

/-- Settles O14: output i is register i, up to the 128 registers there are. -/
theorem endCopiesTheOutputs : Obligations.EndCopiesTheOutputs := by
  refine fun s => ⟨outputStage s, rfl, ?_, fun r hr => ?_, rfl, rfl, fun _ => rfl, fun _ => rfl, rfl⟩
  · rw [outputStage_outputs, List.length_take, Vector.length_toList]
  · rw [outputStage_outputs, List.getElem?_take_of_lt hr, Vector.getElem?_toList]
    exact Vector.getElem?_eq_getElem r.isLt

/-- Settles O20: EQ is the test of all lanes, on the resolved operands. -/
theorem cmpSetsEqWhenAllLanesEqual : Obligations.CmpSetsEqWhenAllLanesEqual := by
  refine fun a b s => ⟨_, rfl, ?_, fun _ => rfl, fun _ => rfl, rfl⟩
  simp only [← resolveValue_getElem]
  exact allLanesEqual_iff (resolveValue a s) (resolveValue b s)

/-- R47: a target is an index in the 15 bits of pc. -/
theorem jumpTo_pc_toNat (s : State) (target : Addr) : (s.jumpTo target).pc.toNat = target.toNat :=
  BitVec.toNat_setWidth_of_le (by decide)

theorem exec_bne_of_eq_false {s : State} (target : Addr) (h : s.eq = false) :
    exec (.bne target) s = .next (s.jumpTo target) := by
  simp only [exec, execBne, h, Bool.false_eq_true, if_false]

theorem exec_bne_of_eq_true {s : State} (target : Addr) (h : s.eq = true) : exec (.bne target) s = .next s := by
  simp only [exec, execBne, h, if_true]

/-- Settles O21, for each value of EQ. -/
theorem bneBranchesWhenEqIsZero : Obligations.BneBranchesWhenEqIsZero := by
  intro target s
  by_cases heq : s.eq = true
  · exact ⟨s, exec_bne_of_eq_true target heq, fun h => absurd (heq.symm.trans h) Bool.noConfusion, fun _ => rfl,
      fun _ => rfl, fun _ => rfl, rfl⟩
  · exact ⟨_, exec_bne_of_eq_false target (Bool.eq_false_of_not_eq_true heq), fun _ => jumpTo_pc_toNat s target,
      fun h => absurd h heq, fun _ => rfl, fun _ => rfl, rfl⟩

/-- Settles O22. -/
theorem jmpAlwaysBranches : Obligations.JmpAlwaysBranches := fun target s =>
  ⟨s.jumpTo target, rfl, jumpTo_pc_toNat s target, fun _ => rfl, fun _ => rfl, rfl⟩

/-- Every reserved operation is the common rule of R88. -/
theorem exec_reserved (i : Instr) (s : State) (h : 10 ≤ Laws.operationId i) :
    exec i s = .next (raiseFault .undefinedOpcode s) := by
  cases i with
  | noop | endOp | move | load | store | cmp | bne | jmp | add | mul => simp [Laws.operationId] at h
  | shift | interp | svf | test1 | test2 | move1 | load1 => rfl

/-- Settles O25, by the common rule. -/
theorem reservedOperationsFault : Obligations.ReservedOperationsFault := by
  intro d x y s i hi
  have hid : 10 ≤ Laws.operationId i := by
    simp only [List.mem_cons, List.not_mem_nil, or_false] at hi
    rcases hi with rfl | rfl | rfl | rfl | rfl | rfl | rfl <;> simp [Laws.operationId]
  exact ⟨_, exec_reserved i s hid, raiseFault_faultEntered .undefinedOpcode s, rfl, fun _ => rfl, fun _ => rfl, rfl⟩

end Sys2Proof.Machine
end

section
/-! Which instruction has which effect: everything a meaning can do, with the instructions that can do it. -/

namespace Sys2Proof.Machine

/-- The instructions that write register r: MOVE, LOAD, ADD and MUL with r as their Rd (R12). -/
def WritesRegister (i : Instr) (r : RegIdx) : Prop :=
  (∃ src, i = .move r src) ∨ (∃ space addr, i = .load r space addr) ∨ (∃ a b, i = .add r a b) ∨
    ∃ a b, i = .mul r a b

/-- The faults a meaning raises in state s, with their grounds: a reserved id (R88), or an address outside the bounds that the
active program sets (R70, R71). -/
def RaisesIn (s : State) (i : Instr) (c : FaultCause) : Prop :=
  (c = .undefinedOpcode ∧ 10 ≤ Laws.operationId i) ∨
  (c = .arenaOutOfRange ∧ i.arenaInBounds s.activeProgram.bounds = false) ∨
  (c = .literalOutOfRange ∧ i.literalInBounds s.activeProgram.bounds = false)

/-- The effect of an instruction on the state after its fetch, by the kinds of exec_cases. -/
inductive Effect (i : Instr) (s : State) : State → Prop where
  | nothing : Effect i s s
  | register (r : RegIdx) (v : Vec) (h : WritesRegister i r) : Effect i s (s.writeReg r v)
  | arena (rs : RegIdx) (addr : Addr) (h : i = .store rs addr) (hin : addr.toNat < s.arenaBound) :
      Effect i s (s.writeArena addr.toNat (s.readReg rs))
  | flag (a b : Operand) (e : Bool) (h : i = .cmp a b) : Effect i s { s with eq := e }
  | jump (target : Addr) (h : i = .bne target ∨ i = .jmp target) : Effect i s (s.jumpTo target)
  | finish (h : i = .endOp) : Effect i s (outputStage s)
  | raise (c : FaultCause) (h : RaisesIn s i c) : Effect i s (raiseFault c s)

/-- Every meaning answers a next state, by one of the effects. -/
theorem exec_effect (i : Instr) (s : State) : ∃ t, exec i s = .next t ∧ Effect i s t := by
  cases i with
  | noop => exact ⟨_, rfl, .nothing⟩
  | endOp => exact ⟨_, rfl, .finish rfl⟩
  | move rd src => exact ⟨_, rfl, .register rd _ (.inl ⟨src, rfl⟩)⟩
  | load rd space addr =>
    have hwrites : WritesRegister (.load rd space addr) rd := .inr (.inl ⟨space, addr, rfl⟩)
    rcases resolveMemoryValue_cases space addr s with
      ⟨rfl, hout, he⟩ | ⟨rfl, -, he⟩ | ⟨rfl, hout, he⟩ | ⟨rfl, _, he⟩
    · exact ⟨_, exec_load_of_error rd he, .raise _ (.inr (.inl ⟨rfl, decide_eq_false (Nat.not_lt.2 hout)⟩))⟩
    · exact ⟨_, exec_load_of_ok rd he, .register rd _ hwrites⟩
    · exact ⟨_, exec_load_of_error rd he, .raise _ (.inr (.inr ⟨rfl, decide_eq_false (Nat.not_lt.2 hout)⟩))⟩
    · exact ⟨_, exec_load_of_ok rd he, .register rd _ hwrites⟩
  | store rs addr =>
    rcases Nat.lt_or_ge addr.toNat s.arenaBound with hin | hout
    · exact ⟨_, exec_store rs hin, .arena rs addr rfl hin⟩
    · exact ⟨_, exec_store_outside rs hout, .raise _ (.inr (.inl ⟨rfl, decide_eq_false (Nat.not_lt.2 hout)⟩))⟩
  | cmp a b => exact ⟨_, rfl, .flag a b _ rfl⟩
  | bne target =>
    by_cases heq : s.eq = true
    · exact ⟨_, exec_bne_of_eq_true target heq, .nothing⟩
    · exact ⟨_, exec_bne_of_eq_false target (Bool.eq_false_of_not_eq_true heq), .jump target (.inl rfl)⟩
  | jmp target => exact ⟨_, rfl, .jump target (.inr rfl)⟩
  | add rd a b => exact ⟨_, rfl, .register rd _ (.inr (.inr (.inl ⟨a, b, rfl⟩)))⟩
  | mul rd a b => exact ⟨_, rfl, .register rd _ (.inr (.inr (.inr ⟨a, b, rfl⟩)))⟩
  | shift | interp | svf | test1 | test2 | move1 | load1 =>
    exact ⟨_, rfl, .raise .undefinedOpcode (.inl ⟨rfl, by simp [Laws.operationId]⟩)⟩

theorem effect_of_exec {i : Instr} {s t : State} (h : exec i s = .next t) : Effect i s t := by
  obtain ⟨u, hu, heffect⟩ := exec_effect i s
  cases hu.symm.trans h
  exact heffect

/-- Settles O34: of the effects, only CMP's writes EQ. -/
theorem onlyCmpWritesEq : Obligations.OnlyCmpWritesEq := by
  intro i s t h hne
  cases effect_of_exec h with
  | flag a b e hi => exact ⟨a, b, hi⟩
  | nothing | register | arena | jump | finish | raise => exact absurd rfl hne

/-- Settles O35: of the effects, only a jump writes pc. -/
theorem onlyBranchesWritePc : Obligations.OnlyBranchesWritePc := by
  intro i s t h hne
  cases effect_of_exec h with
  | jump target hi => exact ⟨target, hi⟩
  | nothing | register | arena | flag | finish | raise => exact absurd rfl hne

/-- Settles O36: of the effects, only STORE's writes the arena, and only a register write changes a register, its own. -/
theorem onlyNamedInstructionsWriteData : Obligations.OnlyNamedInstructionsWriteData := by
  intro i s t h
  refine ⟨fun hne => ?_, fun r hne => ?_⟩
  · cases effect_of_exec h with
    | arena rs addr hi => exact ⟨rs, addr, hi⟩
    | nothing | register | flag | jump | finish | raise => exact absurd rfl hne
  · cases effect_of_exec h with
    | register rd v hi =>
      by_cases hr : r = rd
      · exact hr ▸ hi
      · exact absurd ((writeReg_onlyRegister s rd v).others r hr) hne
    | nothing | arena | flag | jump | finish | raise => exact absurd rfl hne

/-- Settles O37: no effect names the fields of the program and of the host's calls, and STORE's address is below S + K. -/
theorem instructionsStayInTheirReach : Obligations.InstructionsStayInTheirReach := by
  intro i s t h
  cases effect_of_exec h with
  | arena rs addr hi hin =>
    refine ⟨rfl, rfl, rfl, rfl, rfl, rfl, rfl, rfl, rfl, rfl, fun a ha => ?_⟩
    exact (writeArena_onlyArena s addr.toNat _).others a (Nat.ne_of_gt (Nat.lt_of_lt_of_le hin ha))
  | nothing | register | flag | jump | finish | raise =>
    exact ⟨rfl, rfl, rfl, rfl, rfl, rfl, rfl, rfl, rfl, rfl, fun _ _ => rfl⟩

end Sys2Proof.Machine
end

section
/-! One step of the machine that fetches (40_dispatch R64 to R67): the decoded instruction, the decode faults, and totality. -/

namespace Sys2Proof.Machine

open Claims

/-! ### The step that fetches -/

/-- When b is fetched next, the step decodes and executes it in the state after the fetch. -/
theorem step_of_fetchesNext {s : State} {b : Insn} (h : s.FetchesNext b) : step s = execute b (afterFetch s b) := by
  rw [step_of_running s h.running h.turn, instructionStep, State.ticked_steps, if_neg h.belowCeiling, State.ticked_imem,
    State.ticked_pc, h.insn]
  rfl

theorem execute_of_ok {b : Insn} {i : Instr} (s : State) (h : decode b = .ok i) : execute b s = exec i s := by
  simp only [execute, h]

theorem execute_of_error {b : Insn} {c : FaultCause} (s : State) (h : decode b = .error c) :
    execute b s = .next (raiseFault c s) := by
  simp only [execute, h]

/-- Settles O8. -/
theorem stepRunsTheDecodedInstruction : Obligations.StepRunsTheDecodedInstruction := fun s b _ hfetch hdecode =>
  (step_of_fetchesNext hfetch).trans (execute_of_ok (afterFetch s b) hdecode)

theorem step_of_decode_error {s : State} {b : Insn} {c : FaultCause} (hfetch : s.FetchesNext b)
    (hdecode : decode b = .error c) : step s = .next (raiseFault c (afterFetch s b)) :=
  (step_of_fetchesNext hfetch).trans (execute_of_error (afterFetch s b) hdecode)

/-- Settles O9: the entry is that of a fault after the fetch, for each cause that the decoder names. -/
theorem stepTakesTheDecodeFault : Obligations.StepTakesTheDecodeFault := by
  intro s b c hfetch hdecode
  refine ⟨_, step_of_decode_error hfetch hdecode, rfl, ?_⟩
  have hentered := raiseFault_faultEntered c (afterFetch s b)
  rcases (decode_eq_error_iff b c).1 hdecode with ⟨rfl, -⟩ | ⟨rfl, -⟩ | ⟨rfl, -⟩
  · exact .inl ⟨rfl, hentered⟩
  · exact .inr (.inl ⟨rfl, hentered⟩)
  · exact .inr (.inr ⟨rfl, hentered⟩)

/-- Settles O13: a zero opcode byte decodes to NOOP, which has the fetch's effects alone. -/
theorem noopOnlyAdvances : Obligations.NoopOnlyAdvances := by
  refine ⟨fun s => rfl, fun s b hfetch hopcode => ?_⟩
  have hmode : b.opMode = 0 := by rw [Insn.opMode, hopcode]; rfl
  have hid : b.opId.toNat = 0 := by rw [Insn.opId, hopcode]; rfl
  exact ⟨afterFetch s b, stepRunsTheDecodedInstruction s b .noop hfetch (decode_noop hmode hid), rfl, rfl, fun _ => rfl,
    fun _ => rfl, rfl⟩

/-- The word of a STORE with a LITERAL pair and a register Rs does not decode. -/
theorem decode_storeToLiteral {w : BitVec 32} (hop : w.extractLsb' 0 8 = 4) (hdest : w.getLsbD 15 = false)
    (hsrc : w.getLsbD 23 = true) : decode (Insn.ofWord w) = .error .storeToLiteral := by
  have hopcode : (Insn.ofWord w).opcode = 4 := hop
  refine (decode_eq_error_iff _ _).2 (.inr (.inr ⟨rfl, ?_, ?_, ?_, ?_⟩))
  · rw [Insn.opMode, hopcode]; rfl
  · rw [Insn.opId, hopcode]; rfl
  · rw [decodeMode_eq_zero_iff, Insn.ofWord_dest_mode, hdest]
  · rw [decodeMode_ne_zero_iff, Insn.ofWord_src1_mode, hsrc]

/-- Settles O19: the range fault of R71, the decode fault of a LITERAL pair, and the write in range. -/
theorem storeDestinationIsChecked : Obligations.StoreDestinationIsChecked := by
  refine ⟨fun rs addr s h => ?_, fun s w hfetch hop hdest hsrc => ?_, fun rs addr s h => ?_⟩
  · exact ⟨_, exec_store_outside rs h, raiseFault_faultEntered .arenaOutOfRange s, rfl⟩
  · have hentered : FaultEntered 3 s.pc (Insn.ofWord w).word (afterFetch s (Insn.ofWord w)) _ :=
      raiseFault_faultEntered .storeToLiteral (afterFetch s (Insn.ofWord w))
    rw [Insn.word_ofWord] at hentered
    exact ⟨_, step_of_decode_error hfetch (decode_storeToLiteral hop hdest hsrc), hentered, rfl⟩
  · exact ⟨_, exec_store rs h, Memory.read_write_same s.arena addr.toNat (s.readReg rs),
      writeArena_onlyArena s addr.toNat _⟩

/-! ### Totality -/

theorem instructionStep_next (s : State) : ∃ t, instructionStep s = .next t := by
  rcases instructionStep_cases s with ⟨-, he⟩ | ⟨-, -, he⟩ | ⟨-, b, -, c, -, he⟩ | ⟨-, b, -, i, -, he⟩
  · exact ⟨_, he⟩
  · exact ⟨_, he⟩
  · exact ⟨_, he⟩
  · obtain ⟨t, ht, -⟩ := exec_effect i (s.fetched b)
    exact ⟨t, he.trans ht⟩

theorem engineStep_next (s : State) : ∃ t, engineStep s = .next t := by
  cases hrun : s.runState with
  | idle => exact ⟨s, engineStep_idle s hrun⟩
  | running =>
    rw [engineStep_running s hrun]
    exact instructionStep_next s

/-- Settles O27: a host call answers a state, and so does each turn of the engine. -/
theorem everyStepAnswersNext : Obligations.EveryStepAnswersNext := by
  intro s
  rcases step_cases s with ⟨e, rest, -, -, he⟩ | ⟨-, he⟩
  · exact ⟨_, he⟩
  · rw [he]
    exact engineStep_next s.ticked

end Sys2Proof.Machine
end

section
/-! Validation (70_reset_and_hazards R112, R113): what each of the eleven checks says of the instructions, and that the code is that of
the first check that fails. -/

namespace Sys2Proof.Machine

open Claims

/-! ### The checks as bounds on instructions -/

theorem extractLsb'_zero_extractLsb' {w : Nat} (x : BitVec w) (start : Nat) {m n : Nat} (h : n ≤ m) :
    (x.extractLsb' start m).extractLsb' 0 n = x.extractLsb' start n := by
  ext i hi
  simp [Nat.lt_of_lt_of_le hi h]

theorem wordAddr_word (b : Insn) : wordAddr b.word = (pairAddress b.src1 b.src2).toNat := by
  rw [wordAddr, pairAddress, packAddress, decodeIndex, decodeIndex, ← Insn.word_bits_src1, ← Insn.word_bits_src2,
    extractLsb'_zero_extractLsb' _ _ (by decide), extractLsb'_zero_extractLsb' _ _ (by decide)]

theorem wordOp_encode (i : Instr) : wordOp (encode i).word = Laws.operationId i := by
  rw [Insn.wordOp_word, encode_opId]

@[simp] theorem bit23_encode_load (rd : RegIdx) (space : Space) (addr : Addr) :
    (encode (.load rd space addr)).word[23] = decide (space = .literal) := by
  rw [← BitVec.getLsbD_eq_getElem, Bool.eq_iff_iff, Insn.word_bit23]
  cases space <;> simp [encode, encodePair, spaceMode]

@[simp] theorem wordAddr_encode_load (rd : RegIdx) (space : Space) (addr : Addr) :
    wordAddr (encode (.load rd space addr)).word = addr.toNat := by
  rw [wordAddr_word, encode, pairAddress_encodePair]

@[simp] theorem wordAddr_encode_store (rs : RegIdx) (addr : Addr) :
    wordAddr (encode (.store rs addr)).word = addr.toNat := by
  rw [wordAddr_word, encode, pairAddress_encodePair]

@[simp] theorem wordAddr_encode_bne (target : Addr) : wordAddr (encode (.bne target)).word = target.toNat := by
  rw [wordAddr_word, encode, pairAddress_encodePair]

@[simp] theorem wordAddr_encode_jmp (target : Addr) : wordAddr (encode (.jmp target)).word = target.toNat := by
  rw [wordAddr_word, encode, pairAddress_encodePair]

/-- Check 8 on an encoding: only LOAD from the arena and STORE have an arena address. -/
theorem arenaOutside_encode (b : Bounds) (i : Instr) :
    arenaOutside b.arena (encode i).word = false ↔ i.arenaInBounds b = true := by
  rw [arenaOutside, wordOp_encode]
  cases i with
  | load rd space addr => cases space <;> simp [Laws.operationId, Instr.arenaInBounds]
  | store rs addr => simp [Laws.operationId, Instr.arenaInBounds]
  | noop | endOp | move | cmp | bne | jmp | add | mul | shift | interp | svf | test1 | test2 | move1 | load1 =>
    simp [Laws.operationId, Instr.arenaInBounds]

/-- Check 9 on an encoding: only LOAD from the pool has a literal address. -/
theorem literalOutside_encode (b : Bounds) (i : Instr) :
    literalOutside b.literals (encode i).word = false ↔ i.literalInBounds b = true := by
  rw [literalOutside, wordOp_encode]
  cases i with
  | load rd space addr => cases space <;> simp [Laws.operationId, Instr.literalInBounds]
  | noop | endOp | move | store | cmp | bne | jmp | add | mul | shift | interp | svf | test1 | test2 | move1 | load1 =>
    simp [Laws.operationId, Instr.literalInBounds]

/-- Check 10 on an encoding: only BNE and JMP have a target. -/
theorem branchOutside_encode (b : Bounds) (i : Instr) :
    branchOutside b.length (encode i).word = false ↔ i.targetInBounds b = true := by
  rw [branchOutside, wordOp_encode]
  cases i with
  | bne target => simp [Laws.operationId, Instr.targetInBounds]
  | jmp target => simp [Laws.operationId, Instr.targetInBounds]
  | noop | endOp | move | load | store | cmp | add | mul | shift | interp | svf | test1 | test2 | move1 | load1 =>
    simp [Laws.operationId, Instr.targetInBounds]

/-- What checks 5 to 10 ask of one instruction: to be the encoding of a well formed one. -/
theorem passesChecks_iff (b : Insn) (p : Program) :
    (PassesFormChecks b ∧ arenaOutside (p.stateVecs + p.scratchVecs) b.word = false ∧
      literalOutside p.lit.length b.word = false ∧ branchOutside p.insns.length b.word = false) ↔
    ∃ i, decode b = .ok i ∧ encode i = b ∧ i.wellFormed p.bounds = true := by
  constructor
  · rintro ⟨hform, harena, hliteral, hbranch⟩
    obtain ⟨i, hdecode, rfl⟩ := (passesFormChecks_iff b).1 hform
    refine ⟨i, hdecode, rfl, ?_⟩
    rw [Instr.wellFormed, (arenaOutside_encode p.bounds i).1 harena, (literalOutside_encode p.bounds i).1 hliteral,
      (branchOutside_encode p.bounds i).1 hbranch]
    rfl
  · rintro ⟨i, hdecode, rfl, hwf⟩
    simp only [Instr.wellFormed, Bool.and_eq_true] at hwf
    obtain ⟨⟨harena, hliteral⟩, hbranch⟩ := hwf
    exact ⟨encode_passesFormChecks i, (arenaOutside_encode p.bounds i).2 harena,
      (literalOutside_encode p.bounds i).2 hliteral, (branchOutside_encode p.bounds i).2 hbranch⟩

/-- Check 11: END has one encoding, the word 1. -/
theorem endWord_mem_iff (p : Program) : 0x00000001 ∈ wordsOf p ↔ encode .endOp ∈ p.insns := by
  have hword : (encode .endOp).word = 0x00000001 := by decide
  rw [wordsOf, List.mem_map]
  constructor
  · rintro ⟨b, hb, hone⟩
    have heq : b = encode .endOp := by rw [← Insn.ofWord_word b, hone, ← hword, Insn.ofWord_word]
    exact heq ▸ hb
  · exact fun h => ⟨_, h, hword⟩

/-! ### The first check that fails -/

theorem any_words_iff (p : Program) (f : BitVec 32 → Bool) :
    (p.insns.map Insn.word).any f = true ↔ ∃ w ∈ wordsOf p, f w = true := List.any_eq_true

/-- Check 6, mask by mask: there is one for each id up to 9. -/
theorem badOperand_iff (w : BitVec 32) :
    badOperand w = true ↔ ∃ mask, loadMasks[opOf w]? = some mask ∧ w &&& mask ≠ BitVec.ofNat 32 (opOf w) := by
  have hop : wordOp w = opOf w := rfl
  rw [badOperand, hop, Bool.and_eq_true, decide_eq_true_eq, bne_iff_ne]
  by_cases hle : opOf w ≤ 9
  · have hmask : loadMasks[opOf w]? = some (operandMask (opOf w)) := by
      interval_cases opOf w <;> rfl
    simp [hle, hmask]
  · have hnone : loadMasks[opOf w]? = none := List.getElem?_eq_none (by simp [loadMasks]; omega)
    simp [hle, hnone]

theorem wordAddr_eq_addrOf (w : BitVec 32) : wordAddr w = addrOf w := toNat_append_eq_add _ _

theorem badOpcode_iff (w : BitVec 32) : badOpcode w = true ↔ w.extractLsb' 6 2 ≠ 0 ∨ 17 ≤ opOf w := by
  rw [badOpcode, Bool.or_eq_true, bne_iff_ne, decide_eq_true_eq]
  rfl

theorem storesToLiteral_iff (w : BitVec 32) : storesToLiteral w = true ↔ opOf w = 4 ∧ w.getLsbD 23 = true := by
  rw [storesToLiteral, Bool.and_eq_true, beq_iff_eq]
  rfl

theorem arenaOutside_iff (bound : Nat) (w : BitVec 32) :
    arenaOutside bound w = true ↔ ((opOf w = 3 ∧ w.getLsbD 23 = false) ∨ opOf w = 4) ∧ bound ≤ addrOf w := by
  simp only [arenaOutside, Bool.and_eq_true, Bool.or_eq_true, beq_iff_eq, Bool.not_eq_true', decide_eq_true_eq,
    wordAddr_eq_addrOf]
  rfl

theorem literalOutside_iff (length : Nat) (w : BitVec 32) :
    literalOutside length w = true ↔ opOf w = 3 ∧ w.getLsbD 23 = true ∧ length ≤ addrOf w := by
  simp only [literalOutside, Bool.and_eq_true, beq_iff_eq, decide_eq_true_eq, wordAddr_eq_addrOf, and_assoc]
  rfl

theorem branchOutside_iff (length : Nat) (w : BitVec 32) :
    branchOutside length w = true ↔ (opOf w = 6 ∨ opOf w = 7) ∧ length ≤ addrOf w := by
  simp only [branchOutside, Bool.and_eq_true, Bool.or_eq_true, beq_iff_eq, decide_eq_true_eq, wordAddr_eq_addrOf]
  rfl

theorem hasEnd_iff (p : Program) : (p.insns.map Insn.word).contains 0x00000001 = true ↔ 0x00000001 ∈ wordsOf p :=
  List.contains_iff_mem

theorem noEnd_iff (p : Program) : (p.insns.map Insn.word).contains 0x00000001 = false ↔ 0x00000001 ∉ wordsOf p := by
  rw [← Bool.not_eq_true, hasEnd_iff]

/-- The eleven conditions of validate are the checks of the table, so its answer is the result of the first that fails. -/
theorem validate_eq (allocated : Bool) (cap : Nat) (p : Program) [DecidablePred (LoadCheckFails allocated cap p)] :
    validate allocated cap p =
      if LoadCheckFails allocated cap p 1 then .notAllocated
      else if LoadCheckFails allocated cap p 2 then .tooLong
      else if LoadCheckFails allocated cap p 3 then .literalPoolTooLarge
      else if LoadCheckFails allocated cap p 4 then .memoryTooLarge
      else if LoadCheckFails allocated cap p 5 then .badOpcode
      else if LoadCheckFails allocated cap p 6 then .badOperand
      else if LoadCheckFails allocated cap p 7 then .storeToLiteral
      else if LoadCheckFails allocated cap p 8 then .arenaBounds
      else if LoadCheckFails allocated cap p 9 then .literalBounds
      else if LoadCheckFails allocated cap p 10 then .branchBounds
      else if LoadCheckFails allocated cap p 11 then .noEnd
      else .accepted := by
  simp only [validate, LoadCheckFails, Bool.not_eq_true', poolLimit, any_words_iff, badOpcode_iff, badOperand_iff,
    storesToLiteral_iff, arenaOutside_iff, literalOutside_iff, branchOutside_iff, noEnd_iff]

theorem loadCode_validate_of_first {allocated : Bool} {cap : Nat} {p : Program} {k : Nat} (hlo : 1 ≤ k) (hhi : k ≤ 11)
    (hk : LoadCheckFails allocated cap p k) (hfirst : ∀ j, 1 ≤ j → j < k → ¬ LoadCheckFails allocated cap p j) :
    (loadCode (validate allocated cap p)).toNat = k := by
  classical
  rw [validate_eq]
  interval_cases k <;> simp [hk, hfirst, loadCode]

theorem validate_of_noneFails {allocated : Bool} {cap : Nat} {p : Program}
    (h : ∀ j, 1 ≤ j → j ≤ 11 → ¬ LoadCheckFails allocated cap p j) : validate allocated cap p = .accepted := by
  classical
  rw [validate_eq]
  simp [h]

/-- Either no check fails, or one is the first to fail. -/
theorem noneFails_or_first (allocated : Bool) (cap : Nat) (p : Program) :
    (∀ j, 1 ≤ j → j ≤ 11 → ¬ LoadCheckFails allocated cap p j) ∨
      ∃ m, 1 ≤ m ∧ m ≤ 11 ∧ LoadCheckFails allocated cap p m ∧
        ∀ j, 1 ≤ j → j < m → ¬ LoadCheckFails allocated cap p j := by
  classical
  by_cases h : ∃ m, 1 ≤ m ∧ m ≤ 11 ∧ LoadCheckFails allocated cap p m
  · obtain ⟨hlo, hhi, hfails⟩ := Nat.find_spec h
    exact .inr ⟨Nat.find h, hlo, hhi, hfails, fun j hj hlt hjf => Nat.find_min h hlt ⟨hj, by omega, hjf⟩⟩
  · exact .inl fun j hlo hhi hj => h ⟨j, hlo, hhi, hj⟩

/-- R113: the code is the number of the first check that fails. -/
theorem loadCode_validate_eq_iff (allocated : Bool) (cap : Nat) (p : Program) {k : Nat} (hlo : 1 ≤ k) (hhi : k ≤ 11) :
    (loadCode (validate allocated cap p)).toNat = k ↔
      LoadCheckFails allocated cap p k ∧ ∀ j, 1 ≤ j → j < k → ¬ LoadCheckFails allocated cap p j := by
  refine ⟨fun hcode => ?_, fun ⟨hk, hfirst⟩ => loadCode_validate_of_first hlo hhi hk hfirst⟩
  rcases noneFails_or_first allocated cap p with hnone | ⟨m, hmlo, hmhi, hm, hfirst⟩
  · rw [validate_of_noneFails hnone] at hcode
    exact absurd hcode (Nat.ne_of_lt hlo)
  · obtain rfl : m = k := (loadCode_validate_of_first hmlo hmhi hm hfirst).symm.trans hcode
    exact ⟨hm, hfirst⟩

/-- R113: the code is 0 exactly when no check fails. -/
theorem validate_eq_accepted_iff_noneFails (allocated : Bool) (cap : Nat) (p : Program) :
    validate allocated cap p = .accepted ↔ ∀ j, 1 ≤ j → j ≤ 11 → ¬ LoadCheckFails allocated cap p j := by
  refine ⟨fun haccepted => ?_, validate_of_noneFails⟩
  rcases noneFails_or_first allocated cap p with hnone | ⟨m, hlo, hhi, hm, hfirst⟩
  · exact hnone
  · have hcode := loadCode_validate_of_first hlo hhi hm hfirst
    rw [haccepted] at hcode
    exact absurd hcode (Nat.ne_of_lt hlo)

/-- What validation accepts, by instructions (R112). -/
theorem validate_eq_accepted_iff (allocated : Bool) (cap : Nat) (p : Program) :
    validate allocated cap p = .accepted ↔
      allocated = true ∧ p.insns.length ≤ Config.imemDepth ∧ p.lit.length ≤ 16384 ∧ p.stateVecs + p.scratchVecs ≤ cap ∧
        (∀ b ∈ p.insns, ∃ i, decode b = .ok i ∧ encode i = b ∧ i.wellFormed p.bounds = true) ∧
        encode .endOp ∈ p.insns := by
  have hall : ∀ f : BitVec 32 → Bool, ¬ (p.insns.map Insn.word).any f = true ↔ ∀ b ∈ p.insns, f b.word = false := by
    simp
  simp only [validate, ite_eq_iff, reduceCtorEq, and_false, false_or, and_true, hall, hasEnd_iff, endWord_mem_iff,
    ← passesChecks_iff, PassesFormChecks, Bool.not_eq_true', Bool.not_eq_false, Nat.not_lt, poolLimit]
  constructor
  · rintro ⟨halloc, hlen, hlit, hcap, h5, h6, h7, h8, h9, h10, hend⟩
    exact ⟨halloc, hlen, hlit, hcap, fun b hb => ⟨⟨h5 b hb, h6 b hb, h7 b hb⟩, h8 b hb, h9 b hb, h10 b hb⟩, hend⟩
  · rintro ⟨halloc, hlen, hlit, hcap, hchecks, hend⟩
    refine ⟨halloc, hlen, hlit, hcap, ?_, ?_, ?_, ?_, ?_, ?_, hend⟩ <;> intro b hb <;>
      obtain ⟨⟨h5, h6, h7⟩, h8, h9, h10⟩ := hchecks b hb <;> assumption

/-- Settles O42: acceptance by instructions, and the code by the first check that fails. -/
theorem validationAcceptsExactlyWellFormedPrograms : Obligations.ValidationAcceptsExactlyWellFormedPrograms := by
  refine ⟨validate_eq_accepted_iff, fun p s =>
    ⟨setProgram p s, rfl, fun k hlo hhi => ?_, ?_, fun hzero => ?_, fun hne => ?_⟩⟩
  · exact loadCode_validate_eq_iff s.allocated s.arenaCap.toNat p hlo hhi
  · exact (loadCode_eq_zero_iff _).trans (validate_eq_accepted_iff_noneFails s.allocated s.arenaCap.toNat p)
  · rw [setProgram_of_accepted p s ((loadCode_eq_zero_iff _).1 hzero)]
  · rw [setProgram_of_rejected p s fun haccepted => hne ((loadCode_eq_zero_iff _).2 haccepted)]

end Sys2Proof.Machine
end

section
/-! The host's transactions (70_reset_and_hazards R110, R114, R115; 40_dispatch R61): what allocateMemory and an accepted process
call make of the state. -/

namespace Sys2Proof.Machine

open Claims

/-! ### allocateMemory (R110) -/

theorem RunState.idle_or_running (r : RunState) : r = .idle ∨ r = .running := by
  cases r
  · exact .inl rfl
  · exact .inr rfl

theorem RunState.ne_running {r : RunState} (h : r = .idle) : r ≠ .running := by
  rw [h]; exact RunState.noConfusion

theorem allocateMemory_running {s : State} (sReq kReq : Nat) (h : s.runState = .running) :
    allocateMemory sReq kReq s = { s with allocStatus := allocBusy } := by
  rw [allocateMemory, if_pos h]

theorem allocateMemory_tooLarge {s : State} {sReq kReq : Nat} (h : s.runState = .idle)
    (hlarge : Config.arenaMax < sReq + kReq) :
    allocateMemory sReq kReq s = { s with allocStatus := allocFail } := by
  rw [allocateMemory, if_neg (RunState.ne_running h), if_pos hlarge]

theorem allocateMemory_same {s : State} {sReq kReq : Nat} (h : s.runState = .idle) (hfits : sReq + kReq ≤ Config.arenaMax)
    (hsame : s.allocated = true ∧ sReq + kReq = s.arenaCap.toNat) :
    allocateMemory sReq kReq s = { s with allocStatus := allocOk } := by
  rw [allocateMemory, if_neg (RunState.ne_running h), if_neg (Nat.not_lt.2 hfits), if_pos hsame]

theorem allocateMemory_resize {s : State} {sReq kReq : Nat} (h : s.runState = .idle) (hfits : sReq + kReq ≤ Config.arenaMax)
    (hother : ¬ (s.allocated = true ∧ sReq + kReq = s.arenaCap.toNat)) :
    allocateMemory sReq kReq s = resize (sReq + kReq) s := by
  rw [allocateMemory, if_neg (RunState.ne_running h), if_neg (Nat.not_lt.2 hfits), if_neg hother]

/-- Everything allocateMemory can do: a code in ALLOC_STATUS alone, or a capacity change while IDLE. -/
theorem allocateMemory_cases (sReq kReq : Nat) (s : State) :
    (∃ code : BitVec 2, code.toNat ≤ 2 ∧ allocateMemory sReq kReq s = { s with allocStatus := code }) ∨
    (s.runState = .idle ∧ sReq + kReq ≤ Config.arenaMax ∧ allocateMemory sReq kReq s = resize (sReq + kReq) s) := by
  rcases s.runState.idle_or_running with hrun | hrun
  · rcases Nat.lt_or_ge Config.arenaMax (sReq + kReq) with hlarge | hfits
    · exact .inl ⟨allocFail, by decide, allocateMemory_tooLarge hrun hlarge⟩
    · by_cases hsame : s.allocated = true ∧ sReq + kReq = s.arenaCap.toNat
      · exact .inl ⟨allocOk, by decide, allocateMemory_same hrun hfits hsame⟩
      · exact .inr ⟨hrun, hfits, allocateMemory_resize hrun hfits hsame⟩
  · exact .inl ⟨allocBusy, by decide, allocateMemory_running sReq kReq hrun⟩

/-- ARENA_CAP holds every capacity that ARENA_MAX allows. -/
theorem arenaCap_toNat {total : Nat} (h : total ≤ Config.arenaMax) : (BitVec.ofNat 15 total).toNat = total := by
  have hmax : Config.arenaMax < 16385 := Config.arenaMaxBound.isLt
  rw [BitVec.toNat_ofNat]
  omega

theorem resize_readReg (total : Nat) (s : State) (r : RegIdx) : (resize total s).readReg r = zeroVec := by
  rw [State.readReg, resize_regs]
  exact Vector.getElem_replicate r.isLt

/-- Settles O39, outcome by outcome. -/
theorem allocateMemoryOutcomes : Obligations.AllocateMemoryOutcomes := by
  refine fun sReq kReq s => ⟨allocateMemory_running sReq kReq, allocateMemory_tooLarge,
    fun hidle hfits halloc hsame => allocateMemory_same hidle hfits ⟨halloc, hsame⟩, fun hidle hfits hother => ?_⟩
  have hnot : ¬ (s.allocated = true ∧ sReq + kReq = s.arenaCap.toNat) := by
    rintro ⟨halloc, hsame⟩
    rcases hother with hfalse | hne
    · exact Bool.noConfusion (halloc.symm.trans hfalse)
    · exact hne hsame
  exact ⟨_, allocateMemory_resize hidle hfits hnot, arenaCap_toNat hfits, rfl, resize_readReg _ s, fun _ => rfl, rfl, rfl,
    rfl, rfl, rfl, rfl, rfl⟩

/-- Settles O40: each outcome repeats itself, and after a capacity change the request is the capacity. -/
theorem allocateMemoryIsIdempotent : Obligations.AllocateMemoryIsIdempotent := by
  intro sReq kReq s
  cases hrun : s.runState with
  | running =>
    rw [allocateMemory_running sReq kReq hrun, allocateMemory_running sReq kReq (by exact hrun)]
  | idle =>
    rcases Nat.lt_or_ge Config.arenaMax (sReq + kReq) with hlarge | hfits
    · rw [allocateMemory_tooLarge hrun hlarge, allocateMemory_tooLarge (by exact hrun) hlarge]
    · by_cases hsame : s.allocated = true ∧ sReq + kReq = s.arenaCap.toNat
      · rw [allocateMemory_same hrun hfits hsame, allocateMemory_same (by exact hrun) hfits (by exact hsame)]
      · rw [allocateMemory_resize hrun hfits hsame,
          allocateMemory_same (by exact hrun) hfits ⟨rfl, (arenaCap_toNat hfits).symm⟩]
        rfl

/-! ### Installation (R114) -/

/-- The program that the next block runs: the pending one, or the active one where the buffer is empty. -/
def State.nextProgram (s : State) : Program := s.pending.getD s.activeProgram

theorem State.nextProgram_of_pending {s : State} {p : Program} (h : s.pending = some p) : s.nextProgram = p := by
  rw [State.nextProgram, h, Option.getD_some]

theorem State.nextProgram_of_none {s : State} (h : s.pending = none) : s.nextProgram = s.activeProgram := by
  rw [State.nextProgram, h, Option.getD_none]

/-- Installation makes the next program the active one. -/
theorem install_eq (s : State) :
    install s = { s with
      imem := s.nextProgram.insns
      lit := s.nextProgram.lit
      stateVecs := BitVec.ofNat 15 s.nextProgram.stateVecs
      scratchVecs := BitVec.ofNat 15 s.nextProgram.scratchVecs
      pending := none } := by
  cases h : s.pending with
  | none =>
    rw [State.nextProgram_of_none h]
    simp only [install, h, State.activeProgram, BitVec.ofNat_toNat, BitVec.setWidth_eq]
    rw [← h]
  | some p =>
    rw [State.nextProgram_of_pending h]
    simp only [install, h]

/-! ### An accepted process call (R61, R63, R115) -/

/-- The arena at the start of a block: the scratch vectors of the next program take their free contents. -/
def State.startArena (s : State) : Memory :=
  scrambleScratch s.blockNo (BitVec.ofNat 15 s.nextProgram.stateVecs).toNat (BitVec.ofNat 15 s.nextProgram.scratchVecs).toNat
    s.arena

/-- The state after an accepted call, up to its first fetch. -/
def State.started (s : State) (inputs : List Vec) (nout : Nat) : State :=
  { s with
    regs := inputRegs 0 inputs s.regs
    pc := 0
    steps := 0
    eq := false
    arena := s.startArena
    imem := s.nextProgram.insns
    lit := s.nextProgram.lit
    stateVecs := BitVec.ofNat 15 s.nextProgram.stateVecs
    scratchVecs := BitVec.ofNat 15 s.nextProgram.scratchVecs
    pending := none
    runState := .running
    nout := nout
    outputs := []
    blockNo := s.blockNo + 1 }

/-- The call that R62 accepts. -/
structure State.Accepts (s : State) (nin nout : Nat) : Prop where
  idle : s.runState = .idle
  allocated : s.allocated = true
  program : s.imem ≠ [] ∨ s.pending ≠ none
  posOut : 1 ≤ nout
  maxOut : nout ≤ 128
  maxIn : nin ≤ 128

theorem processRefusal_of_accepts {s : State} {nin nout : Nat} (h : s.Accepts nin nout) :
    processRefusal nin nout s = none := by
  have hcounts : ¬ (nout = 0 ∨ 128 < nout ∨ 128 < nin) := by
    have := h.posOut; have := h.maxOut; have := h.maxIn; omega
  rw [processRefusal_of_ready nin nout s h.idle h.allocated h.program, if_neg hcounts]

theorem process_of_accepts {s : State} {inputs : List Vec} {nout : Nat} (h : s.Accepts inputs.length nout) :
    process inputs nout s = s.started inputs nout := by
  rw [process_of_accepted inputs nout s (processRefusal_of_accepts h), blockStart, install_eq]
  rfl

/-- Everything process can do up to the first fetch: a code in STATUS alone, or the start of a block. -/
theorem process_cases (inputs : List Vec) (nout : Nat) (s : State) :
    (∃ code, process inputs nout s = { s with status := code }) ∨
    (s.Accepts inputs.length nout ∧ process inputs nout s = s.started inputs nout) := by
  by_cases hnotReady : s.runState = .running ∨ s.allocated = false ∨ (s.imem = [] ∧ s.pending = none)
  · exact .inl ⟨_, process_of_refused inputs nout s _ (processRefusal_of_notReady inputs.length nout s hnotReady)⟩
  obtain ⟨hrun, halloc, hprog⟩ := not_or.1 hnotReady |>.imp_right not_or.1
  have hidle := s.runState.idle_or_running.resolve_right hrun
  have halloc := Bool.eq_true_of_not_eq_false halloc
  have hprog := not_and_or.1 hprog
  by_cases hcounts : nout = 0 ∨ 128 < nout ∨ 128 < inputs.length
  · refine .inl ⟨statusBadIo, process_of_refused inputs nout s statusBadIo ?_⟩
    rw [processRefusal_of_ready inputs.length nout s hidle halloc hprog, if_pos hcounts]
  · have haccepts : s.Accepts inputs.length nout := ⟨hidle, halloc, hprog, by omega, by omega, by omega⟩
    exact .inr ⟨haccepts, process_of_accepts haccepts⟩

/-! ### Scratch vectors at block start (R115) -/

theorem scrambleScratch_succ (block first n : Nat) (m : Memory) :
    scrambleScratch block first (n + 1) m =
      (scrambleScratch block first n m).write (first + n) (Config.scratchContent block (first + n)) := by
  rw [scrambleScratch, List.range_succ, List.foldl_append]
  rfl

theorem scrambleScratch_wf (block first count : Nat) (m : Memory) (h : m.wf = true) :
    (scrambleScratch block first count m).wf = true := by
  induction count with
  | zero => exact h
  | succ n ih =>
    rw [scrambleScratch_succ]
    exact Memory.wf_write _ _ _ ih

theorem scrambleScratch_below (block first count bound : Nat) (m : Memory) (h : m.below bound = true)
    (hbound : first + count ≤ bound) : (scrambleScratch block first count m).below bound = true := by
  induction count with
  | zero => exact h
  | succ n ih =>
    rw [scrambleScratch_succ]
    exact Memory.below_write _ _ _ _ (ih (by omega)) (by omega)

/-- The vectors outside the scratch range keep their contents. -/
theorem scrambleScratch_read_outside (block first count a : Nat) (m : Memory) (h : a < first ∨ first + count ≤ a) :
    (scrambleScratch block first count m).read a = m.read a := by
  induction count with
  | zero => rfl
  | succ n ih => rw [scrambleScratch_succ, Memory.read_write_ne _ _ _ _ (by omega), ih (by omega)]

/-- The vectors of the scratch range have their free contents. -/
theorem scrambleScratch_read_inside (block first count a : Nat) (m : Memory) (hwf : m.wf = true) (hlo : first ≤ a)
    (hhi : a < first + count) : (scrambleScratch block first count m).read a = Config.scratchContent block a := by
  induction count with
  | zero => omega
  | succ n ih =>
    rw [scrambleScratch_succ]
    by_cases h : a = first + n
    · rw [h, Memory.read_write_same _ _ _ (scrambleScratch_wf block first n m hwf)]
    · rw [Memory.read_write_ne _ _ _ _ h, ih (by omega)]

/-! ### The start of a block from an invariant state -/

/-- Under the invariant the next program's memory requirement is inside the capacity. -/
theorem nextProgram_requirement {s : State} (h : s.Inv) :
    s.nextProgram.stateVecs + s.nextProgram.scratchVecs ≤ s.arenaCap.toNat := by
  cases hp : s.pending with
  | none =>
    rw [State.nextProgram_of_none hp]
    exact h.requirement
  | some p =>
    rw [State.nextProgram_of_pending hp]
    obtain ⟨-, -, -, hcap, -⟩ := (validate_eq_accepted_iff _ _ _).1 (h.pendingAccepted p hp)
    exact hcap

theorem nextProgram_lengths {s : State} (h : s.Inv) :
    s.nextProgram.insns.length ≤ Config.imemDepth ∧ s.nextProgram.lit.length ≤ poolLimit := by
  cases hp : s.pending with
  | none =>
    rw [State.nextProgram_of_none hp]
    exact ⟨h.programLength, h.poolLength⟩
  | some p =>
    rw [State.nextProgram_of_pending hp]
    obtain ⟨-, hlen, hlit, -⟩ := (validate_eq_accepted_iff _ _ _).1 (h.pendingAccepted p hp)
    exact ⟨hlen, hlit⟩

theorem nextProgram_insns_ne_nil {s : State} (h : s.Inv) (hprog : s.imem ≠ [] ∨ s.pending ≠ none) :
    s.nextProgram.insns ≠ [] := by
  cases hp : s.pending with
  | none =>
    rw [State.nextProgram_of_none hp]
    exact hprog.resolve_right (not_not.2 hp)
  | some p =>
    rw [State.nextProgram_of_pending hp]
    obtain ⟨-, -, -, -, -, hend⟩ := (validate_eq_accepted_iff _ _ _).1 (h.pendingAccepted p hp)
    exact List.ne_nil_of_mem hend

/-- Under the invariant the 15-bit fields hold the next program's counts. -/
theorem nextProgram_counts {s : State} (h : s.Inv) :
    (BitVec.ofNat 15 s.nextProgram.stateVecs).toNat = s.nextProgram.stateVecs ∧
      (BitVec.ofNat 15 s.nextProgram.scratchVecs).toNat = s.nextProgram.scratchVecs := by
  have hcap := (nextProgram_requirement h).trans h.capacity
  exact ⟨arenaCap_toNat (by omega), arenaCap_toNat (by omega)⟩

theorem started_activeProgram {s : State} (h : s.Inv) (inputs : List Vec) (nout : Nat) :
    (s.started inputs nout).activeProgram = s.nextProgram := by
  obtain ⟨hstate, hscratch⟩ := nextProgram_counts h
  simp only [State.activeProgram, State.started, hstate, hscratch]

theorem started_readReg (s : State) (inputs : List Vec) (nout : Nat) (r : RegIdx) :
    (s.started inputs nout).readReg r = inputs[r.toNat]?.getD (s.readReg r) :=
  readReg_inputStage inputs s r

/-- Settles O45: the next program is installed, and block start writes scratch vectors alone. -/
theorem pendingProgramIsInstalledAtBlockStart : Obligations.PendingProgramIsInstalledAtBlockStart := by
  intro inputs nout s hinv hidle halloc hprog hpos hout hin
  have hactive := started_activeProgram hinv inputs nout
  refine ⟨_, process_of_accepts ⟨hidle, halloc, hprog, hpos, hout, hin⟩, rfl, ?_, fun p hp => ?_, fun hp => ?_,
    fun r hr => ?_, fun a ha => ?_⟩
  · simpa [State.programValid, State.started] using nextProgram_insns_ne_nil hinv hprog
  · rw [hactive, State.nextProgram_of_pending hp]
  · rw [hactive, State.nextProgram_of_none hp]
  · rw [started_readReg, List.getElem?_eq_none hr, Option.getD_none]
  · exact scrambleScratch_read_outside s.blockNo _ _ a s.arena (.inl ha)

/-- Settles O46: the fields that block start sets, and the three ranges of the arena. -/
theorem blockStartResets : Obligations.BlockStartResets := by
  intro inputs nout s hinv hidle halloc hprog hpos hout hin
  exact ⟨_, process_of_accepts ⟨hidle, halloc, hprog, hpos, hout, hin⟩, rfl, rfl, rfl, rfl,
    fun a hlo hhi => scrambleScratch_read_inside s.blockNo _ _ a s.arena hinv.arenaCanonical hlo hhi,
    fun a ha => scrambleScratch_read_outside s.blockNo _ _ a s.arena (.inl ha),
    fun a ha => scrambleScratch_read_outside s.blockNo _ _ a s.arena (.inr ha),
    rfl, rfl, rfl, rfl, rfl, rfl, rfl, rfl, rfl, rfl⟩

end Sys2Proof.Machine
end

section
/-! The host's view of the block: host calls while a block runs (20_memory R36, R37), the status registers (10_state R26) and
the state at power-on (70_reset_and_hazards R109). -/

namespace Sys2Proof.Machine

open Claims

/-! ### Host calls while a block runs -/

theorem step_of_hostCall {s : State} {c : HostCall} {rest : List HostEvent} (h : s.hostCalls = ⟨0, c⟩ :: rest) :
    step s = .next (hostCall c { s with hostCalls := rest, outputs := [] }) := by
  simp only [step, machineStep, agentStep, State.handedOver, h]

/-- Settles O47: BUSY, NOT_READY, or a write of the pending buffer. -/
theorem hostCallsDoNotDisturbARunningBlock : Obligations.HostCallsDoNotDisturbARunningBlock := by
  intro s t c rest hrun hcalls hstep
  cases (step_of_hostCall hcalls).symm.trans hstep
  cases c with
  | allocateMemory sReq kReq =>
    rw [hostCall, allocateMemory_running sReq kReq (by exact hrun)]
    exact ⟨rfl, fun _ _ _ => rfl, nofun, nofun⟩
  | setProgram p =>
    refine ⟨rfl, nofun, nofun, fun q hq => ?_⟩
    cases hq
    exact ⟨rfl, rfl⟩
  | process inputs nout =>
    rw [hostCall, process_of_refused inputs nout _ statusNotReady
      (processRefusal_of_notReady inputs.length nout _ (.inl (by exact hrun)))]
    exact ⟨rfl, nofun, fun _ _ _ => rfl, nofun⟩

/-! ### Status registers (R26) -/

theorem toNat_setWidth_32 {w : Nat} (x : BitVec w) (h : w ≤ 32) : (x.setWidth 32).toNat = x.toNat :=
  BitVec.toNat_setWidth_of_le h

theorem length_register_toNat {n : Nat} (h : n ≤ 16384) : ((BitVec.ofNat 15 n).setWidth 32).toNat = n := by
  rw [toNat_setWidth_32 _ (by decide), BitVec.toNat_ofNat]
  omega

theorem imemDepth_le : Config.imemDepth ≤ 16384 := Config.imemDepthPred.isLt

/-- ENGINE_FLAGS has the four flags in its low bits, and no other bit. -/
theorem flags_bits (a b c d : Bool) :
    (flagAt 0 a ||| flagAt 1 b ||| flagAt 2 c ||| flagAt 3 d).toNat < 2 ^ 4 ∧
    (flagAt 0 a ||| flagAt 1 b ||| flagAt 2 c ||| flagAt 3 d).getLsbD 0 = a ∧
    (flagAt 0 a ||| flagAt 1 b ||| flagAt 2 c ||| flagAt 3 d).getLsbD 1 = b ∧
    (flagAt 0 a ||| flagAt 1 b ||| flagAt 2 c ||| flagAt 3 d).getLsbD 2 = c ∧
    (flagAt 0 a ||| flagAt 1 b ||| flagAt 2 c ||| flagAt 3 d).getLsbD 3 = d := by
  revert a b c d
  decide

/-- Settles O48: each register is its field, the invariant bounds the codes and lengths, the flags are read bit by bit. -/
theorem statusRegisterLayout : Obligations.StatusRegisterLayout := by
  intro s hinv
  obtain ⟨hsmall, h0, h1, h2, h3⟩ :=
    flags_bits s.allocated s.programValid s.pending.isSome (s.runState == .running)
  have hstatus := toNat_setWidth_32 s.status (by decide)
  have hcause := toNat_setWidth_32 s.faultCause (by decide)
  have hpc := toNat_setWidth_32 s.faultPc (by decide)
  have hload := toNat_setWidth_32 s.loadStatus (by decide)
  have halloc := toNat_setWidth_32 s.allocStatus (by decide)
  refine ⟨hstatus.trans_lt s.status.isLt, hcause.trans_le hinv.causeCodes, hpc.trans_lt s.faultPc.isLt, rfl,
    hload.trans_le hinv.loadCodes, halloc.trans_le hinv.allocCodes, hstatus, hcause, hpc, hload, halloc, hsmall, h0,
    ?_, ?_, ?_, toNat_setWidth_32 _ (by decide), length_register_toNat (hinv.programLength.trans imemDepth_le),
    length_register_toNat hinv.poolLength, toNat_setWidth_32 _ (by decide), toNat_setWidth_32 _ (by decide)⟩
  · rw [show (readStatus 6 s).getLsbD 1 = s.programValid from h1, ← Bool.not_eq_false, State.programValid_eq_false_iff]
  · rw [show (readStatus 6 s).getLsbD 2 = s.pending.isSome from h2, Option.isSome_iff_ne_none]
  · rw [show (readStatus 6 s).getLsbD 3 = (s.runState == .running) from h3, beq_iff_eq]

/-! ### Power-on (R109) -/

/-- Settles O49: the fields are those of the table, and each call meets the unallocated, idle block. -/
theorem powerOnAcceptsOnlyAllocation : Obligations.PowerOnAcceptsOnlyAllocation := by
  refine ⟨⟨rfl, rfl, rfl, rfl, rfl, rfl, rfl, rfl, rfl, rfl, rfl⟩, by decide, fun p => rfl, fun inputs nout => ?_,
    fun sReq kReq hfits => ?_⟩
  · exact process_of_refused inputs nout _ statusNotReady
      (processRefusal_of_notReady inputs.length nout _ (.inr (.inl rfl)))
  · rw [allocateMemory_resize rfl hfits (by exact fun h => Bool.noConfusion h.1)]
    rfl

end Sys2Proof.Machine
end

section
/-! Everything a step can do, and what follows of it: the idle block (60_exceptions R108), results handed over (10_state R27),
precise faults (R99). -/

namespace Sys2Proof.Machine

/-- What one turn of the dispatch loop can make of the state (40_dispatch R64 to R67). -/
inductive Turn (s : State) : State → Prop where
  | stepLimit (hsteps : s.steps = Config.maxSteps) : Turn s (raiseBeforeFetch .stepLimit s)
  | pcOutOfRange (hsteps : s.steps ≠ Config.maxSteps) (hpc : s.imem.length ≤ s.pc.toNat) :
      Turn s (raiseBeforeFetch .pcOutOfRange s)
  | undecoded (b : Insn) (c : FaultCause) (hsteps : s.steps ≠ Config.maxSteps) (hinsn : s.imem[s.pc.toNat]? = some b)
      (hdecode : decode b = .error c) : Turn s (raiseFault c (s.fetched b))
  | executed (b : Insn) (i : Instr) (t : State) (hsteps : s.steps ≠ Config.maxSteps)
      (hinsn : s.imem[s.pc.toNat]? = some b) (hdecode : decode b = .ok i) (heffect : Effect i (s.fetched b) t) : Turn s t

theorem turn_of_instructionStep {s t : State} (h : instructionStep s = .next t) : Turn s t := by
  rcases instructionStep_cases s with
    ⟨hsteps, he⟩ | ⟨hsteps, hpc, he⟩ | ⟨hsteps, b, hinsn, c, hdecode, he⟩ | ⟨hsteps, b, hinsn, i, hdecode, he⟩
  · cases he.symm.trans h
    exact .stepLimit hsteps
  · cases he.symm.trans h
    exact .pcOutOfRange hsteps hpc
  · cases he.symm.trans h
    exact .undecoded b c hsteps hinsn hdecode
  · exact .executed b i t hsteps hinsn hdecode (effect_of_exec (he.symm.trans h))

/-- What one step of the machine can make of the state: a due host call, an idle engine step, or a turn of the dispatch loop. -/
inductive Stepped (s : State) : State → Prop where
  | host (c : HostCall) (rest : List HostEvent) (hcalls : s.hostCalls = ⟨0, c⟩ :: rest) :
      Stepped s (hostCall c { s with hostCalls := rest, outputs := [] })
  | idle (hrun : s.runState = .idle) : Stepped s s.ticked
  | turn (t : State) (hrun : s.runState = .running) (hturn : Turn s.ticked t) : Stepped s t

theorem turn_of_step {s t : State} (hrun : s.runState = .running) (hturn : s.engineTurn = true) (h : step s = .next t) :
    Turn s.ticked t :=
  turn_of_instructionStep ((step_of_running s hrun hturn).symm.trans h)

theorem step_of_idle {s : State} (hrun : s.runState = .idle) (hturn : s.engineTurn = true) : step s = .next s.ticked :=
  (step_of_engineTurn s hturn).trans (engineStep_idle s.ticked hrun)

theorem stepped_of_step {s t : State} (h : step s = .next t) : Stepped s t := by
  rcases step_cases s with ⟨⟨delay, c⟩, rest, hcalls, hdelay, he⟩ | ⟨hturn, -⟩
  · cases he.symm.trans h
    exact .host c rest (by rw [hcalls, show delay = 0 from hdelay])
  · rcases s.runState.idle_or_running with hrun | hrun
    · cases (step_of_idle hrun hturn).symm.trans h
      exact .idle hrun
    · exact .turn t hrun (turn_of_step hrun hturn h)

/-! ### How a turn ends the block -/

/-- An effect leaves the block running with its NOUT and outputs, or ends it. -/
theorem effect_runState {i : Instr} {s t : State} (h : Effect i s t) :
    (t.runState = s.runState ∧ t.nout = s.nout ∧ t.outputs = s.outputs) ∨ (t.runState = .idle ∧ t.nout = 0) := by
  cases h with
  | nothing | register | arena | flag | jump => exact .inl ⟨rfl, rfl, rfl⟩
  | finish | raise => exact .inr ⟨rfl, rfl⟩

theorem turn_runState {s t : State} (h : Turn s t) :
    (t.runState = s.runState ∧ t.nout = s.nout ∧ t.outputs = s.outputs) ∨ (t.runState = .idle ∧ t.nout = 0) := by
  cases h with
  | stepLimit | pcOutOfRange | undecoded => exact .inr ⟨rfl, rfl⟩
  | executed b i t hsteps hinsn hdecode heffect => exact effect_runState (s := s.fetched b) heffect

/-- A host call keeps NOUT, outputs and the run state, unless it starts a block. -/
theorem hostCall_runState (c : HostCall) (s : State) :
    ((hostCall c s).runState = s.runState ∧ (hostCall c s).nout = s.nout ∧ (hostCall c s).outputs = s.outputs) ∨
    ((hostCall c s).runState = .running ∧ (hostCall c s).outputs = [] ∧
      ∃ inputs nout, c = .process inputs nout ∧ s.Accepts inputs.length nout) := by
  cases c with
  | allocateMemory sReq kReq =>
    rw [hostCall]
    rcases allocateMemory_cases sReq kReq s with ⟨code, -, he⟩ | ⟨-, -, he⟩ <;> rw [he] <;> exact .inl ⟨rfl, rfl, rfl⟩
  | setProgram p => exact .inl ⟨rfl, rfl, rfl⟩
  | process inputs nout =>
    rw [hostCall]
    rcases process_cases inputs nout s with ⟨code, he⟩ | ⟨haccepts, he⟩ <;> rw [he]
    · exact .inl ⟨rfl, rfl, rfl⟩
    · exact .inr ⟨rfl, rfl, inputs, nout, rfl, haccepts⟩

/-- Settles O12: an idle engine step only ticks; of the steps from an idle state only an accepted call runs a block; outputs are left
by the turn that ends a block alone, which gives up NOUT. -/
theorem idleKeepsStateUntilProcess : Obligations.IdleKeepsStateUntilProcess := by
  refine ⟨fun s hrun hturn => step_of_idle hrun hturn, fun s t hidle hstep hrunning => ?_, fun s t hstep hne => ?_,
    fun s t hnout hstep hidle => ?_⟩
  · cases stepped_of_step hstep with
    | host c rest hcalls =>
      rcases hostCall_runState c { s with hostCalls := rest, outputs := [] } with
        ⟨hrun, -, -⟩ | ⟨-, -, inputs, nout, rfl, haccepts⟩
      · exact RunState.noConfusion (hidle.symm.trans (hrun.symm.trans hrunning))
      · exact ⟨inputs, nout, rest, hcalls, haccepts.allocated, haccepts.program, haccepts.posOut, haccepts.maxOut,
          haccepts.maxIn⟩
    | idle => exact RunState.noConfusion (hidle.symm.trans hrunning)
    | turn t hrun => exact RunState.noConfusion (hidle.symm.trans hrun)
  · cases stepped_of_step hstep with
    | host c rest =>
      rcases hostCall_runState c { s with hostCalls := rest, outputs := [] } with ⟨-, -, hout⟩ | ⟨-, hout, -⟩ <;>
        exact absurd hout hne
    | idle => exact absurd rfl hne
    | turn t hrun hturn =>
      rcases turn_runState hturn with ⟨-, -, hout⟩ | ⟨hend, -⟩
      · exact absurd hout hne
      · exact ⟨hrun, hend⟩
  · cases stepped_of_step hstep with
    | host c rest =>
      rcases hostCall_runState c { s with hostCalls := rest, outputs := [] } with ⟨hrun, hkept, -⟩ | ⟨hrun, -⟩
      · exact hkept.trans (hnout (hrun.symm.trans hidle))
      · exact RunState.noConfusion (hidle.symm.trans hrun)
    | idle hrun => exact hnout hrun
    | turn t hrun hturn =>
      rcases turn_runState hturn with ⟨hkept, -⟩ | ⟨-, hzero⟩
      · exact RunState.noConfusion (hidle.symm.trans (hkept.trans hrun))
      · exact hzero

/-! ### Preciseness (R99) -/

/-- Settles O26: a turn that ends in FAULT is a fault entry before or after the fetch, which writes the record alone. -/
theorem faultsArePrecise : Obligations.FaultsArePrecise := by
  intro s t hrun hturn hstep hidle hstatus
  cases turn_of_step hrun hturn hstep with
  | stepLimit | pcOutOfRange =>
    exact ⟨rfl, rfl, rfl, rfl, .inl ⟨rfl, rfl, rfl⟩, rfl, rfl, rfl, rfl, rfl, rfl⟩
  | undecoded => exact ⟨rfl, rfl, rfl, rfl, .inr ⟨rfl, rfl⟩, rfl, rfl, rfl, rfl, rfl, rfl⟩
  | executed b i t hsteps hinsn hdecode heffect =>
    cases heffect with
    | nothing | register | arena | flag | jump => exact RunState.noConfusion (hidle.symm.trans hrun)
    | finish => exact absurd hstatus (show statusOk ≠ 1 by decide)
    | raise => exact ⟨rfl, rfl, rfl, rfl, .inr ⟨rfl, rfl⟩, rfl, rfl, rfl, rfl, rfl, rfl⟩

end Sys2Proof.Machine
end

section
/-! The machine invariant and the acceptance of the active program, kept by every step: once for each host call and each turn of
the dispatch loop. -/

namespace Sys2Proof.Machine

/-! ### The invariant, operation by operation -/

theorem faultCode_le (c : FaultCause) : (faultCode c).toNat ≤ 7 := by
  cases c <;> decide

theorem loadCode_le (r : LoadResult) : (loadCode r).toNat ≤ 11 := by
  cases r <;> decide

/-- Host calls and results handed over are not the invariant's. -/
theorem inv_handedOver {s : State} (h : s.Inv) (calls : List HostEvent) :
    State.Inv { s with hostCalls := calls, outputs := [] } :=
  { h with noResultYet := fun _ => rfl }

theorem inv_allocateMemory {s : State} (h : s.Inv) (sReq kReq : Nat) : (allocateMemory sReq kReq s).Inv := by
  rcases allocateMemory_cases sReq kReq s with ⟨code, hcode, he⟩ | ⟨hidle, hfits, he⟩ <;> rw [he]
  · exact { h with allocCodes := hcode }
  · exact { h with
      arenaCanonical := rfl
      arenaInside := rfl
      capacity := (arenaCap_toNat hfits).trans_le hfits
      requirement := Nat.zero_le _
      programLength := Nat.zero_le _
      poolLength := Nat.zero_le _
      allocCodes := Nat.zero_le _
      runningBlock := fun hrun => RunState.noConfusion (hidle.symm.trans hrun)
      pendingAccepted := nofun }

theorem inv_setProgram {s : State} (h : s.Inv) (p : Program) : (setProgram p s).Inv := by
  by_cases haccepted : validate s.allocated s.arenaCap.toNat p = .accepted
  · rw [setProgram_of_accepted p s haccepted]
    exact { h with loadCodes := Nat.zero_le _, pendingAccepted := fun q hq => Option.some.inj hq ▸ haccepted }
  · rw [setProgram_of_rejected p s haccepted]
    exact { h with loadCodes := loadCode_le _ }

theorem inv_started {s : State} (h : s.Inv) {inputs : List Vec} {nout : Nat} (haccepts : s.Accepts inputs.length nout) :
    (s.started inputs nout).Inv := by
  obtain ⟨hstate, hscratch⟩ := nextProgram_counts h
  obtain ⟨hlen, hlit⟩ := nextProgram_lengths h
  have hrequirement : (s.started inputs nout).arenaBound ≤ s.arenaCap.toNat := by
    simpa only [State.arenaBound, State.started, hstate, hscratch] using nextProgram_requirement h
  exact { h with
    arenaCanonical := scrambleScratch_wf _ _ _ _ h.arenaCanonical
    arenaInside := scrambleScratch_below _ _ _ _ _ h.arenaInside hrequirement
    requirement := hrequirement
    programLength := hlen
    poolLength := hlit
    stepCeiling := Nat.zero_le _
    pcRange := Nat.zero_le _
    runningBlock := fun _ =>
      ⟨haccepts.allocated, nextProgram_insns_ne_nil h haccepts.program, haccepts.posOut, haccepts.maxOut⟩
    noResultYet := fun _ => rfl
    noCallHeld := nofun
    pendingAccepted := nofun }

theorem inv_hostCall {s : State} (h : s.Inv) (c : HostCall) : (hostCall c s).Inv := by
  cases c with
  | allocateMemory sReq kReq => exact inv_allocateMemory h sReq kReq
  | setProgram p => exact inv_setProgram h p
  | process inputs nout =>
    rw [hostCall]
    rcases process_cases inputs nout s with ⟨code, he⟩ | ⟨haccepts, he⟩ <;> rw [he]
    · exact { h with }
    · exact inv_started h haccepts

/-- The exits of a block: the record, the outputs and the run state are free of the invariant once the call is over. -/
theorem inv_takeFault {s : State} (h : s.Inv) (c : FaultCause) (w : BitVec 32) : (takeFault c w s).Inv :=
  { h with causeCodes := faultCode_le c, runningBlock := nofun, noResultYet := nofun, noCallHeld := fun _ => rfl }

theorem inv_outputStage {s : State} (h : s.Inv) : (outputStage s).Inv :=
  { h with runningBlock := nofun, noResultYet := nofun, noCallHeld := fun _ => rfl }

/-- A fetch below the ceiling and inside the program keeps STEPS and pc in their ranges. -/
theorem inv_fetched {s : State} (h : s.Inv) {b : Insn} (hsteps : s.steps ≠ Config.maxSteps)
    (hinsn : s.imem[s.pc.toNat]? = some b) : (s.fetched b).Inv := by
  have hpc : s.pc.toNat < 16384 :=
    (List.getElem?_eq_some_iff.1 hinsn).1.trans_le (h.programLength.trans imemDepth_le)
  have hnext : (s.pc + 1).toNat ≤ 16384 := by
    rw [BitVec.toNat_add]
    exact (Nat.mod_le _ _).trans hpc
  exact { h with stepCeiling := Nat.lt_of_le_of_ne h.stepCeiling hsteps, pcRange := hnext }

theorem inv_effect {i : Instr} {s t : State} (h : s.Inv) (heffect : Effect i s t) : t.Inv := by
  cases heffect with
  | nothing => exact h
  | register r v => exact { h with }
  | arena rs addr hi hin =>
    exact { h with
      arenaCanonical := Memory.wf_write _ _ _ h.arenaCanonical
      arenaInside := Memory.below_write _ _ _ _ h.arenaInside (hin.trans_le h.requirement) }
  | flag a b e => exact { h with }
  | jump target => exact { h with pcRange := (jumpTo_pc_toNat s target).trans_le (Nat.le_of_lt target.isLt) }
  | finish => exact inv_outputStage h
  | raise c => exact inv_takeFault h c s.insnWord

theorem inv_turn {s t : State} (h : s.Inv) (hturn : Turn s t) : t.Inv := by
  cases hturn with
  | stepLimit | pcOutOfRange => exact inv_takeFault (s := { s with pcCur := s.pc }) { h with } _ 0
  | undecoded b c hsteps hinsn => exact inv_takeFault (inv_fetched h hsteps hinsn) c b.word
  | executed b i t hsteps hinsn hdecode heffect => exact inv_effect (inv_fetched h hsteps hinsn) heffect

/-- Settles O28, over what a step can do. -/
theorem stepKeepsInv : Obligations.StepKeepsInv := by
  intro s t h hstep
  cases stepped_of_step hstep with
  | host c rest => exact inv_hostCall (inv_handedOver h rest) c
  | idle => exact inv_handedOver h _
  | turn t hrun hturn => exact inv_turn (inv_handedOver h _) hturn

/-! ### The active program stays accepted -/

/-- Acceptance speaks of the program and the allocation alone. -/
theorem activeAccepted_congr {s t : State} (h : s.ActiveAccepted) (himem : t.imem = s.imem)
    (hactive : t.activeProgram = s.activeProgram) (halloc : t.allocated = s.allocated) (hcap : t.arenaCap = s.arenaCap) :
    t.ActiveAccepted := by
  intro hne
  rw [hactive, halloc, hcap]
  exact h (himem ▸ hne)

theorem activeAccepted_started {s : State} (hinv : s.Inv) (h : s.ActiveAccepted) (inputs : List Vec) (nout : Nat) :
    (s.started inputs nout).ActiveAccepted := by
  intro hne
  rw [started_activeProgram hinv]
  cases hp : s.pending with
  | none =>
    rw [State.nextProgram_of_none hp]
    refine h ?_
    have himem : (s.started inputs nout).imem = s.imem := by
      rw [State.started, State.nextProgram_of_none hp, State.activeProgram]
    exact himem ▸ hne
  | some p =>
    rw [State.nextProgram_of_pending hp]
    exact hinv.pendingAccepted p hp

theorem activeAccepted_hostCall {s : State} (hinv : s.Inv) (h : s.ActiveAccepted) (c : HostCall) :
    (hostCall c s).ActiveAccepted := by
  cases c with
  | allocateMemory sReq kReq =>
    rw [hostCall]
    rcases allocateMemory_cases sReq kReq s with ⟨code, -, he⟩ | ⟨-, -, he⟩ <;> rw [he]
    · exact h
    · exact fun hne => absurd rfl hne
  | setProgram p => exact h
  | process inputs nout =>
    rw [hostCall]
    rcases process_cases inputs nout s with ⟨code, he⟩ | ⟨-, he⟩ <;> rw [he]
    · exact h
    · exact activeAccepted_started hinv h inputs nout

/-- No turn touches the program or the allocation. -/
theorem turn_keeps_program {s t : State} (h : Turn s t) :
    t.imem = s.imem ∧ t.activeProgram = s.activeProgram ∧ t.allocated = s.allocated ∧ t.arenaCap = s.arenaCap := by
  cases h with
  | stepLimit | pcOutOfRange | undecoded => exact ⟨rfl, rfl, rfl, rfl⟩
  | executed b i t hsteps hinsn hdecode heffect => cases heffect <;> exact ⟨rfl, rfl, rfl, rfl⟩

theorem activeAccepted_turn {s t : State} (h : s.ActiveAccepted) (hturn : Turn s t) : t.ActiveAccepted := by
  obtain ⟨himem, hactive, halloc, hcap⟩ := turn_keeps_program hturn
  exact activeAccepted_congr h himem hactive halloc hcap

/-- Settles O30, over what a step can do. -/
theorem stepKeepsTheActiveProgramAccepted : Obligations.StepKeepsTheActiveProgramAccepted := by
  intro s t hinv h hstep
  cases stepped_of_step hstep with
  | host c rest => exact activeAccepted_hostCall (inv_handedOver hinv rest) h c
  | idle => exact h
  | turn t hrun hturn => exact activeAccepted_turn (s := s.ticked) h hturn

/-- Settles O29: everything is 0 or empty at power-on. -/
theorem resetHasInv : Obligations.ResetHasInv := by
  refine ⟨?_, fun hne => absurd rfl hne⟩
  exact {
    arenaCanonical := rfl
    arenaInside := rfl
    capacity := Nat.zero_le _
    requirement := Nat.zero_le _
    programLength := Nat.zero_le _
    poolLength := Nat.zero_le _
    stepCeiling := Nat.zero_le _
    pcRange := Nat.zero_le _
    causeCodes := Nat.zero_le _
    loadCodes := Nat.zero_le _
    allocCodes := Nat.zero_le _
    runningBlock := nofun
    noResultYet := nofun
    noCallHeld := fun _ => rfl
    pendingAccepted := nofun }

end Sys2Proof.Machine
end

section
/-! What an accepted program can do (70_reset_and_hazards R112), and the end of a block (40_dispatch R73). -/

namespace Sys2Proof.Machine

/-! ### Faults of an accepted program -/

/-- Every instruction of an accepted active program is the encoding of a well formed one. -/
theorem accepted_insn {s : State} {b : Insn} {n : Nat} (h : s.ActiveAccepted) (hinsn : s.imem[n]? = some b) :
    ∃ i, decode b = .ok i ∧ encode i = b ∧ i.wellFormed s.activeProgram.bounds = true := by
  have hmem : b ∈ s.imem := List.mem_of_getElem? hinsn
  obtain ⟨-, -, -, -, hinsns, -⟩ := (validate_eq_accepted_iff _ _ _).1 (h (List.ne_nil_of_mem hmem))
  exact hinsns b hmem

theorem operationId_le (i : Instr) : Laws.operationId i ≤ 16 := by
  cases i <;> simp [Laws.operationId]

/-- A well formed instruction raises nothing but UNDEFINED_OPCODE, for a reserved id. -/
theorem raisesIn_of_wellFormed {s : State} {i : Instr} {c : FaultCause} (h : RaisesIn s i c)
    (hwf : i.wellFormed s.activeProgram.bounds = true) : c = .undefinedOpcode ∧ 10 ≤ Laws.operationId i := by
  simp only [Instr.wellFormed, Bool.and_eq_true] at hwf
  obtain ⟨⟨harena, hliteral⟩, -⟩ := hwf
  rcases h with hundefined | ⟨-, hout⟩ | ⟨-, hout⟩
  · exact hundefined
  · exact Bool.noConfusion (harena.symm.trans hout)
  · exact Bool.noConfusion (hliteral.symm.trans hout)

/-- The word of an encoding has opcode mode 0 and the operation's id. -/
theorem encode_word_fields (i : Instr) :
    (encode i).word.extractLsb' 6 2 = 0 ∧ ((encode i).word.extractLsb' 0 6).toNat = Laws.operationId i :=
  ⟨(Insn.word_opMode _).trans (encode_opMode i), wordOp_encode i⟩

/-- How a turn of an accepted program ends: not at all, at END, or by one of three faults. -/
theorem turn_of_accepted {s t : State} (haccepted : s.ActiveAccepted) (hrun : s.runState = .running) (hturn : Turn s t) :
    t.runState = .running ∨ (t.status = 0 ∧ t.faultCause = s.faultCause) ∨
      (t.status = 1 ∧
        ((t.faultCause = 1 ∧ t.faultInsn.extractLsb' 6 2 = 0 ∧ 10 ≤ (t.faultInsn.extractLsb' 0 6).toNat ∧
            (t.faultInsn.extractLsb' 0 6).toNat ≤ 16) ∨
          t.faultCause = 6 ∨ t.faultCause = 7)) := by
  cases hturn with
  | stepLimit => exact .inr (.inr ⟨rfl, .inr (.inr rfl)⟩)
  | pcOutOfRange => exact .inr (.inr ⟨rfl, .inr (.inl rfl)⟩)
  | undecoded b c hsteps hinsn hdecode =>
    obtain ⟨i, hok, -⟩ := accepted_insn haccepted hinsn
    exact nomatch hok.symm.trans hdecode
  | executed b i t hsteps hinsn hdecode heffect =>
    obtain ⟨j, hok, hencode, hwf⟩ := accepted_insn haccepted hinsn
    obtain rfl : j = i := Except.ok.inj (hok.symm.trans hdecode)
    cases heffect with
    | nothing | register | arena | flag | jump => exact .inl hrun
    | finish => exact .inr (.inl ⟨rfl, rfl⟩)
    | raise c hraises =>
      obtain ⟨rfl, hid⟩ := raisesIn_of_wellFormed hraises hwf
      obtain ⟨hmode, hop⟩ := encode_word_fields j
      rw [hencode] at hmode hop
      exact .inr (.inr ⟨rfl, .inl ⟨rfl, hmode, hop.symm ▸ hid, hop.symm ▸ operationId_le j⟩⟩)

/-- With pc inside the program, a turn does not fault with PC_OUT_OF_RANGE. -/
theorem turn_faultCause_ne_six {s t : State} (hrun : s.runState = .running) (hpc : s.pc.toNat < s.imem.length)
    (hturn : Turn s t) (hidle : t.runState = .idle) (hstatus : t.status = 1) : t.faultCause ≠ 6 := by
  cases hturn with
  | stepLimit => exact show faultCode .stepLimit ≠ 6 by decide
  | pcOutOfRange hsteps hout => exact absurd hpc (Nat.not_lt.2 hout)
  | undecoded b c hsteps hinsn hdecode =>
    show faultCode c ≠ 6
    rcases (decode_eq_error_iff b c).1 hdecode with ⟨rfl, -⟩ | ⟨rfl, -⟩ | ⟨rfl, -⟩ <;> decide
  | executed b i t hsteps hinsn hdecode heffect =>
    cases heffect with
    | nothing | register | arena | flag | jump => exact RunState.noConfusion (hidle.symm.trans hrun)
    | finish => exact absurd hstatus (show statusOk ≠ 1 by decide)
    | raise c hraises =>
      show faultCode c ≠ 6
      rcases hraises with ⟨rfl, -⟩ | ⟨rfl, -⟩ | ⟨rfl, -⟩ <;> decide

/-- The target of a taken branch, in the state after the fetch. -/
theorem step_of_takenBranch {s : State} {b : Insn} {target : Addr} (hfetch : s.FetchesNext b)
    (htaken : decode b = .ok (.jmp target) ∨ (decode b = .ok (.bne target) ∧ s.eq = false)) :
    step s = .next ((Claims.afterFetch s b).jumpTo target) := by
  rcases htaken with hjmp | ⟨hbne, heq⟩
  · exact stepRunsTheDecodedInstruction s b _ hfetch hjmp
  · exact (stepRunsTheDecodedInstruction s b _ hfetch hbne).trans (exec_bne_of_eq_false target heq)

/-- Check 10 for a branch that decodes in an accepted program. -/
theorem target_lt_of_accepted {s : State} {b : Insn} {target : Addr} {n : Nat} (h : s.ActiveAccepted)
    (hinsn : s.imem[n]? = some b) (hbranch : decode b = .ok (.jmp target) ∨ decode b = .ok (.bne target)) :
    target.toNat < s.imem.length := by
  obtain ⟨i, hok, -, hwf⟩ := accepted_insn h hinsn
  rcases hbranch with hdecode | hdecode <;>
  · obtain rfl := Except.ok.inj (hok.symm.trans hdecode)
    exact of_decide_eq_true (Bool.and_eq_true_iff.1 hwf).2

/-- Settles O31: the turn of an accepted program, and a taken branch, which lands inside it. -/
theorem acceptedProgramsFaultOnlyThreeWays : Obligations.AcceptedProgramsFaultOnlyThreeWays := by
  refine ⟨fun s t _ haccepted hrun hturn hstep => ?_, fun s b target _ haccepted hfetch htaken => ?_⟩
  · exact turn_of_accepted (s := s.ticked) haccepted hrun (turn_of_step hrun hturn hstep)
  · have hpc := jumpTo_pc_toNat (Claims.afterFetch s b) target
    have hrunning : ((Claims.afterFetch s b).jumpTo target).runState = .running := hfetch.running
    have hlt : target.toNat < s.imem.length :=
      target_lt_of_accepted haccepted hfetch.insn (htaken.imp_right And.left)
    refine ⟨_, step_of_takenBranch hfetch htaken, hrunning, hpc, hpc.trans_lt hlt, fun u hturn hstep => ?_⟩
    exact turn_faultCause_ne_six (s := ((Claims.afterFetch s b).jumpTo target).ticked) hrunning (hpc.trans_lt hlt)
      (turn_of_step hrunning hturn hstep)

/-! ### The end of a block -/

theorem run_succ {s t : State} (n : Nat) (h : step s = .next t) :
    Host.Core.run Sys2Proof.core (n + 1) s = Host.Core.run Sys2Proof.core n t := by
  have hcore : Sys2Proof.core.step s = .next t := h
  simp only [Host.Core.run, hcore]

/-- A block that has returned: IDLE, OK or FAULT, with all its outputs. -/
structure Returned (nout : Nat) (t : State) : Prop where
  idle : t.runState = .idle
  status : t.status = 0 ∨ t.status = 1
  outputs : t.outputs.length = nout
  calls : t.hostCalls = []

theorem returned_takeFault {s : State} (c : FaultCause) (w : BitVec 32) (hcalls : s.hostCalls = []) :
    Returned s.nout (takeFault c w s) where
  idle := rfl
  status := .inr rfl
  outputs := List.length_replicate
  calls := hcalls

theorem returned_outputStage {s : State} (hout : s.nout ≤ 128) (hcalls : s.hostCalls = []) :
    Returned s.nout (outputStage s) where
  idle := rfl
  status := .inl rfl
  outputs := by rw [outputStage_outputs, List.length_take, Vector.length_toList, Nat.min_eq_left hout]
  calls := hcalls

/-- A turn ends the block, or counts one of the steps left. -/
theorem turn_progress {s t : State} (hturn : Turn s t) (hrun : s.runState = .running) (hcalls : s.hostCalls = [])
    (hout : s.nout ≤ 128) :
    Returned s.nout t ∨
      (s.steps ≠ Config.maxSteps ∧ t.steps = s.steps + 1 ∧ t.runState = .running ∧ t.nout = s.nout ∧ t.hostCalls = []) := by
  cases hturn with
  | stepLimit | pcOutOfRange => exact .inl (returned_takeFault (s := { s with pcCur := s.pc }) _ 0 hcalls)
  | undecoded b c => exact .inl (returned_takeFault (s := s.fetched b) c b.word hcalls)
  | executed b i t hsteps hinsn hdecode heffect =>
    cases heffect with
    | nothing | register | arena | flag | jump => exact .inr ⟨hsteps, rfl, hrun, rfl, hcalls⟩
    | finish => exact .inl (returned_outputStage (s := s.fetched b) hout hcalls)
    | raise c => exact .inl (returned_takeFault (s := s.fetched b) c b.word hcalls)

/-- A running block returns within the steps left under the ceiling and one check, by induction on their number. -/
theorem block_returns (s : State) (hinv : s.Inv) (hrun : s.runState = .running) (hcalls : s.hostCalls = []) :
    ∃ n t, n ≤ Config.maxSteps - s.steps + 1 ∧ Host.Core.run Sys2Proof.core n s = .next t ∧ Returned s.nout t ∧
      t.steps ≤ Config.maxSteps := by
  induction hleft : Config.maxSteps - s.steps using Nat.strong_induction_on generalizing s with
  | _ m ih =>
    obtain ⟨-, -, -, hout⟩ := hinv.runningBlock hrun
    have hturn : s.engineTurn = true := by rw [State.engineTurn, hcalls]
    have hticked : s.ticked.hostCalls = [] := by rw [State.ticked_hostCalls, hcalls, tickCalls]
    obtain ⟨t, hstep⟩ := everyStepAnswersNext s
    have htinv : t.Inv := stepKeepsInv s t hinv hstep
    rcases turn_progress (turn_of_step hrun hturn hstep) hrun hticked hout with
      hret | ⟨hne, hsteps, hrun', hnout, hcalls'⟩
    · exact ⟨1, t, by omega, run_succ 0 hstep, hret, htinv.stepCeiling⟩
    · rw [State.ticked_steps] at hne hsteps
      have hceiling := hinv.stepCeiling
      obtain ⟨n, u, hn, hrunu, hret, hu⟩ := ih (Config.maxSteps - t.steps) (by omega) t htinv hrun' hcalls' rfl
      exact ⟨n + 1, u, by omega, (run_succ n hstep).trans hrunu, hnout ▸ hret, hu⟩

/-- Settles O32. -/
theorem blockEndsWithinTheCeiling : Obligations.BlockEndsWithinTheCeiling := by
  intro s hinv hrun hcalls
  obtain ⟨n, t, hn, hrunt, hret, hsteps⟩ := block_returns s hinv hrun hcalls
  exact ⟨n, t, hn, hrunt, hret.idle, hret.status, hret.outputs, hsteps⟩

/-- Settles O33: one step for the call, then the block from STEPS = 0. -/
theorem acceptedProcessReturns : Obligations.AcceptedProcessReturns := by
  intro s inputs nout hinv hidle halloc hprog hpos hout hin hcalls
  have haccepts : State.Accepts { s with hostCalls := [], outputs := [] } inputs.length nout :=
    ⟨hidle, halloc, hprog, hpos, hout, hin⟩
  have hstep : step s = .next (State.started { s with hostCalls := [], outputs := [] } inputs nout) := by
    rw [step_of_hostCall hcalls, hostCall, process_of_accepts haccepts]
  have hinv' := stepKeepsInv s _ hinv hstep
  obtain ⟨n, t, hn, hrun, hret, -⟩ := block_returns _ hinv' rfl rfl
  exact ⟨n + 1, t, Nat.succ_le_succ hn, (run_succ n hstep).trans hrun, hret.idle, hret.status, hret.outputs, hret.calls⟩

end Sys2Proof.Machine
end

section
/-! Noninterference of the arena past S + K (10_state R18): a step on two arenas that agree below the bound gives two that still do. -/

namespace Sys2Proof.Machine

/-- Two arenas agree below n. -/
def AgreeBelow (n : Nat) (m m' : Memory) : Prop := ∀ a, a < n → m'.read a = m.read a

theorem agreeBelow_write {n : Nat} {m m' : Memory} (hm : m.wf = true) (hm' : m'.wf = true) (h : AgreeBelow n m m') (a : Nat)
    (v : Vec) : AgreeBelow n (m.write a v) (m'.write a v) := by
  intro b hb
  by_cases hab : b = a
  · rw [hab, Memory.read_write_same m a v hm, Memory.read_write_same m' a v hm']
  · rw [Memory.read_write_ne m a b v hab, Memory.read_write_ne m' a b v hab, h b hb]

theorem resolveValue_arena (o : Operand) (s : State) (m : Memory) :
    resolveValue o { s with arena := m } = resolveValue o s := by
  cases o <;> rfl

/-- A meaning sees the arena below S + K alone: LOAD reads there, STORE writes there, the others do neither. -/
theorem exec_agreeBelow (i : Instr) (s : State) (m : Memory) (hwf : s.arena.wf = true) (hm : m.wf = true)
    (h : AgreeBelow s.arenaBound s.arena m) :
    ∃ t m', exec i s = .next t ∧ exec i { s with arena := m } = .next { t with arena := m' } ∧
      AgreeBelow s.arenaBound t.arena m' := by
  cases i with
  | noop | endOp | jmp | shift | interp | svf | test1 | test2 | move1 | load1 => exact ⟨_, m, rfl, rfl, h⟩
  | move rd src => exact ⟨_, m, rfl, by simp only [exec, execMove, resolveValue_arena]; rfl, h⟩
  | cmp a b => exact ⟨_, m, rfl, by simp only [exec, execCmp, resolveValue_arena], h⟩
  | add rd a b => exact ⟨_, m, rfl, by simp only [exec, execAdd, resolveValue_arena]; rfl, h⟩
  | mul rd a b => exact ⟨_, m, rfl, by simp only [exec, execMul, resolveValue_arena]; rfl, h⟩
  | bne target =>
    by_cases heq : s.eq = true
    · exact ⟨_, m, exec_bne_of_eq_true target heq, exec_bne_of_eq_true target heq, h⟩
    · have heq := Bool.eq_false_of_not_eq_true heq
      exact ⟨_, m, exec_bne_of_eq_false target heq, exec_bne_of_eq_false target heq, h⟩
  | load rd space addr =>
    rcases resolveMemoryValue_cases space addr s with
      ⟨rfl, hout, he⟩ | ⟨rfl, hin, he⟩ | ⟨rfl, hout, he⟩ | ⟨rfl, hin, he⟩
    · exact ⟨_, m, exec_load_of_error rd he,
        exec_load_of_error rd (resolveMemoryValue_arena_outside (s := { s with arena := m }) hout), h⟩
    · refine ⟨_, m, exec_load_of_ok rd he, ?_, h⟩
      rw [← h addr.toNat hin]
      exact exec_load_of_ok rd (resolveMemoryValue_arena hin)
    · exact ⟨_, m, exec_load_of_error rd he,
        exec_load_of_error rd (resolveMemoryValue_literal_outside (s := { s with arena := m }) hout), h⟩
    · exact ⟨_, m, exec_load_of_ok rd he,
        exec_load_of_ok rd (resolveMemoryValue_literal (List.getElem?_eq_getElem hin)), h⟩
  | store rs addr =>
    rcases Nat.lt_or_ge addr.toNat s.arenaBound with hin | hout
    · exact ⟨_, m.write addr.toNat (s.readReg rs), exec_store rs hin, exec_store rs hin,
        agreeBelow_write hwf hm h addr.toNat (s.readReg rs)⟩
    · exact ⟨_, m, exec_store_outside rs hout, exec_store_outside rs hout, h⟩

theorem instructionStep_agreeBelow (s : State) (m : Memory) (hwf : s.arena.wf = true) (hm : m.wf = true)
    (h : AgreeBelow s.arenaBound s.arena m) :
    ∃ t m', instructionStep s = .next t ∧ instructionStep { s with arena := m } = .next { t with arena := m' } ∧
      AgreeBelow s.arenaBound t.arena m' := by
  by_cases hsteps : s.steps = Config.maxSteps
  · exact ⟨_, m, instructionStep_of_ceiling s hsteps, instructionStep_of_ceiling _ hsteps, h⟩
  rcases Nat.lt_or_ge s.pc.toNat s.imem.length with hin | hout
  · have hfetch : ∀ u : State, u.steps = s.steps → u.imem = s.imem → u.pc = s.pc →
        instructionStep u = execute s.imem[s.pc.toNat] (u.fetched s.imem[s.pc.toNat]) := by
      intro u husteps huimem hupc
      simp only [instructionStep, husteps, hsteps, huimem, hupc, List.getElem?_eq_getElem hin, if_false]
    rw [hfetch s rfl rfl rfl, hfetch { s with arena := m } rfl rfl rfl]
    cases hdecode : decode s.imem[s.pc.toNat] with
    | error c => exact ⟨_, m, execute_of_error _ hdecode, execute_of_error _ hdecode, h⟩
    | ok i =>
      rw [execute_of_ok _ hdecode, execute_of_ok _ hdecode]
      exact exec_agreeBelow i (s.fetched s.imem[s.pc.toNat]) m hwf hm h
  · exact ⟨_, m, instructionStep_of_pcOutOfRange s hsteps hout, instructionStep_of_pcOutOfRange _ hsteps hout, h⟩

/-- Settles O38: an idle step ticks both states alike, and a turn keeps the agreement. -/
theorem unreachableArenaIsNotObserved : Obligations.UnreachableArenaIsNotObserved := by
  intro s u t hturn hwf hm hu hagree hstep
  generalize u.arena = m at hu hm hagree
  subst hu
  rcases s.runState.idle_or_running with hrun | hrun
  · cases (step_of_idle hrun hturn).symm.trans hstep
    exact ⟨_, step_of_idle (s := { s with arena := m }) hrun hturn, rfl, hagree⟩
  · obtain ⟨t', m', ht, hv, hagree'⟩ := instructionStep_agreeBelow s.ticked m hwf hm hagree
    cases ht.symm.trans ((step_of_running s hrun hturn).symm.trans hstep)
    exact ⟨_, (step_of_running { s with arena := m } hrun hturn).trans hv, rfl, hagree'⟩

end Sys2Proof.Machine
end

section
/-! Binary32 patterns by sign and magnitude bits (42_arithmetic R77): the magnitude in units is strictly rising in the magnitude
bits, so a finite value determines its pattern up to the sign of a zero. -/

namespace Sys2Proof

open Claims

/-! ### Magnitude bits -/

/-- The magnitude bits of a pattern: all but the sign. -/
def B32.mag (x : B32) : Nat := x.toNat % 2 ^ 31

theorem B32.mag_lt (x : B32) : x.mag < 2 ^ 31 := Nat.mod_lt _ (by decide)

theorem B32.expo_eq (x : B32) : x.expo = x.mag / 2 ^ 23 := by
  obtain ⟨-, hexpo, -⟩ := B32.pack_fields x.isNeg x.mag x.mag_lt
  rwa [B32.mag, B32.pack_self] at hexpo

theorem B32.frac_eq (x : B32) : x.frac = x.mag % 2 ^ 23 := by
  obtain ⟨-, -, hfrac⟩ := B32.pack_fields x.isNeg x.mag x.mag_lt
  rwa [B32.mag, B32.pack_self] at hfrac

theorem B32.ext_sign_mag {x y : B32} (hneg : x.isNeg = y.isNeg) (hmag : x.mag = y.mag) : x = y := by
  rw [← B32.pack_self x, ← B32.pack_self y, hneg]
  exact congrArg (B32.pack y.isNeg) hmag

@[simp] theorem B32.pack_mag (neg : Bool) {m : Nat} (h : m < 2 ^ 31) : (B32.pack neg m).mag = m := by
  rw [B32.mag, B32.pack, BitVec.toNat_ofNat]
  cases neg <;> simp <;> omega

theorem B32.pack_isNeg (neg : Bool) {m : Nat} (h : m < 2 ^ 31) : (B32.pack neg m).isNeg = neg :=
  (B32.pack_fields neg m h).1

/-! ### Classes, by magnitude bits -/

theorem B32.isFinite_iff (x : B32) : x.isFinite = true ↔ x.mag < B32.infBits := by
  have := x.mag_lt
  simp only [B32.isFinite, bne_iff_ne, B32.expo_eq, B32.infBits]
  omega

theorem B32.isInf_iff (x : B32) : x.isInf = true ↔ x.mag = B32.infBits := by
  have := x.mag_lt
  simp only [B32.isInf, Bool.and_eq_true, beq_iff_eq, B32.expo_eq, B32.frac_eq, B32.infBits]
  omega

theorem B32.isNaN_iff (x : B32) : x.isNaN = true ↔ B32.infBits < x.mag := by
  have := x.mag_lt
  simp only [B32.isNaN, Bool.and_eq_true, beq_iff_eq, bne_iff_ne, B32.expo_eq, B32.frac_eq, B32.infBits]
  omega

theorem B32.isZero_iff (x : B32) : x.isZero = true ↔ x.mag = 0 := by
  simp only [B32.isZero, Bool.and_eq_true, beq_iff_eq, B32.expo_eq, B32.frac_eq]
  omega

theorem B32.isSubnormal_iff (x : B32) : x.isSubnormal = true ↔ x.mag ≠ 0 ∧ x.mag < 2 ^ 23 := by
  simp only [B32.isSubnormal, Bool.and_eq_true, beq_iff_eq, bne_iff_ne, B32.expo_eq, B32.frac_eq]
  omega

/-- Every pattern is finite, an infinity or a NaN. -/
theorem B32.class_cases (x : B32) :
    (x.isFinite = true ∧ x.isInf = false ∧ x.isNaN = false) ∨ (x.isFinite = false ∧ x.isInf = true ∧ x.isNaN = false) ∨
      (x.isFinite = false ∧ x.isInf = false ∧ x.isNaN = true) := by
  simp only [← Bool.not_eq_true, B32.isFinite_iff, B32.isInf_iff, B32.isNaN_iff]
  omega

/-! ### Units -/

/-- The units of magnitude bits m (R77): the scale is 2^k with k one less than the exponent field, or 0 in the subnormal range. -/
def magUnits (m : Nat) : Nat := if m < 2 ^ 23 then m else (2 ^ 23 + m % 2 ^ 23) * 2 ^ (m / 2 ^ 23 - 1)

theorem B32.units_eq (x : B32) : x.units = magUnits x.mag := by
  rw [B32.units, magUnits, B32.expo_eq, B32.frac_eq]
  by_cases h : x.mag < 2 ^ 23
  · rw [if_pos h, if_pos (Nat.div_eq_of_lt h), Nat.mod_eq_of_lt h]
  · rw [if_neg h, if_neg (by omega)]

theorem unitsOfBits_eq {m : Nat} (h : m < 2 ^ 31) : unitsOfBits m = magUnits m := by
  have hpack : BitVec.ofNat 32 m = B32.pack false m := by simp [B32.pack]
  rw [unitsOfBits, hpack, B32.units_eq, B32.pack_mag false h]

/-- A significand m at scale 2^k has the magnitude bits k * 2^23 + m, the next power of two included. -/
theorem magUnits_significand {k m : Nat} (hhi : m ≤ 2 ^ 24) (hlo : 2 ^ 23 ≤ m ∨ k = 0) :
    magUnits (k * 2 ^ 23 + m) = m * 2 ^ k := by
  rw [magUnits]
  by_cases hsub : k * 2 ^ 23 + m < 2 ^ 23
  · have hk : k = 0 := by omega
    subst hk
    rw [if_pos hsub]
    omega
  rw [if_neg hsub]
  rcases Nat.lt_or_ge m (2 ^ 24) with hlt | hge
  · have hdiv : (k * 2 ^ 23 + m) / 2 ^ 23 - 1 = k := by omega
    have hmod : 2 ^ 23 + (k * 2 ^ 23 + m) % 2 ^ 23 = m := by omega
    rw [hdiv, hmod]
  · have hm : m = 2 ^ 24 := by omega
    have hdiv : (k * 2 ^ 23 + m) / 2 ^ 23 - 1 = k + 1 := by omega
    have hmod : 2 ^ 23 + (k * 2 ^ 23 + m) % 2 ^ 23 = 2 ^ 23 := by omega
    rw [hdiv, hmod, hm]
    ring

/-- Every magnitude is a significand at a scale. -/
theorem exists_significand (b : Nat) : ∃ k m, b = k * 2 ^ 23 + m ∧ m < 2 ^ 24 ∧ (2 ^ 23 ≤ m ∨ k = 0) :=
  ⟨b / 2 ^ 23 - 1, b - (b / 2 ^ 23 - 1) * 2 ^ 23, by omega, by omega, by omega⟩

theorem magUnits_strictMono : StrictMono magUnits := by
  refine strictMono_nat_of_lt_succ fun b => ?_
  obtain ⟨k, m, rfl, hlt, hlo⟩ := exists_significand b
  rw [Nat.add_assoc, magUnits_significand (Nat.le_of_lt hlt) hlo, magUnits_significand hlt (by omega)]
  exact Nat.mul_lt_mul_of_pos_right (Nat.lt_succ_self m) (Nat.two_pow_pos k)

theorem magUnits_zero : magUnits 0 = 0 := rfl

theorem B32.units_eq_zero_iff (x : B32) : x.units = 0 ↔ x.mag = 0 := by
  rw [B32.units_eq]
  exact magUnits_strictMono.injective.eq_iff' magUnits_zero

theorem B32.value_natAbs (x : B32) : x.value.natAbs = x.units := by
  rw [B32.value]
  split
  · rw [Int.natAbs_neg, Int.natAbs_natCast]
  · exact Int.natAbs_natCast _

theorem B32.value_eq_zero_iff (x : B32) : x.value = 0 ↔ x.mag = 0 := by
  rw [← B32.units_eq_zero_iff, ← B32.value_natAbs, Int.natAbs_eq_zero]

/-- The sign of a value that is not 0 is the sign bit. -/
theorem B32.isNeg_eq_of_mag_ne {x : B32} (h : x.mag ≠ 0) : x.isNeg = decide (x.value < 0) := by
  have hpos : x.units ≠ 0 := mt (B32.units_eq_zero_iff x).1 h
  rw [B32.value]
  cases x.isNeg with
  | false => simp
  | true => simpa using Nat.pos_of_ne_zero hpos

/-- A finite value has one pattern, but for zero, which has two. -/
theorem B32.value_eq_iff (x y : B32) : x.value = y.value ↔ x = y ∨ (x.mag = 0 ∧ y.mag = 0) := by
  constructor
  · intro h
    by_cases hx : x.mag = 0
    · exact .inr ⟨hx, (B32.value_eq_zero_iff y).1 (h ▸ (B32.value_eq_zero_iff x).2 hx)⟩
    · have hy : y.mag ≠ 0 := fun hy => hx ((B32.value_eq_zero_iff x).1 (h.trans ((B32.value_eq_zero_iff y).2 hy)))
      have hneg : x.isNeg = y.isNeg := by rw [B32.isNeg_eq_of_mag_ne hx, B32.isNeg_eq_of_mag_ne hy, h]
      have hunits : magUnits x.mag = magUnits y.mag := by
        rw [← B32.units_eq, ← B32.units_eq, ← B32.value_natAbs, ← B32.value_natAbs, h]
      exact .inl (B32.ext_sign_mag hneg (magUnits_strictMono.injective hunits))
  · rintro (rfl | ⟨hx, hy⟩)
    · rfl
    · rw [(B32.value_eq_zero_iff x).2 hx, (B32.value_eq_zero_iff y).2 hy]

end Sys2Proof
end

section
/-! Flushing, quiet equality, and the special cases of the default sum and product (42_arithmetic R78, 43_control R84). -/

namespace Sys2Proof

open Machine Claims

/-! ### Flushing (R78) -/

theorem B32.signedZero_eq_pack (neg : Bool) : B32.signedZero neg = B32.pack neg 0 := by
  cases neg <;> rfl

@[simp] theorem B32.signedZero_mag (neg : Bool) : (B32.signedZero neg).mag = 0 := by
  cases neg <;> rfl

theorem B32.flush_true (x : B32) : x.flush true = if x.isSubnormal then B32.signedZero x.isNeg else x := by
  rw [B32.flush, Bool.and_true]

/-- Flushing gives a zero of the same sign, or nothing is flushed. -/
theorem B32.flush_cases (ftz : Bool) (x : B32) :
    x.flush ftz = x ∨ (x.isSubnormal = true ∧ ftz = true ∧ x.flush ftz = B32.signedZero x.isNeg) := by
  rw [B32.flush]
  by_cases h : (x.isSubnormal && ftz) = true
  · obtain ⟨hsub, hftz⟩ := Bool.and_eq_true_iff.1 h
    exact .inr ⟨hsub, hftz, if_pos h⟩
  · exact .inl (if_neg h)

theorem B32.flush_of_not_subnormal (ftz : Bool) {x : B32} (h : x.isSubnormal = false) : x.flush ftz = x := by
  rw [B32.flush, h, Bool.false_and, if_neg Bool.false_ne_true]

@[simp] theorem B32.flush_isFinite (ftz : Bool) (x : B32) : (x.flush ftz).isFinite = x.isFinite := by
  rcases B32.flush_cases ftz x with h | ⟨hsub, -, h⟩ <;> rw [h]
  rw [Bool.eq_iff_iff, B32.isFinite_iff, B32.isFinite_iff, B32.signedZero_mag]
  have := (B32.isSubnormal_iff x).1 hsub
  simp only [B32.infBits]
  omega

theorem B32.flush_true_not_subnormal (x : B32) : (x.flush true).isSubnormal = false := by
  rw [← Bool.not_eq_true, B32.isSubnormal_iff]
  rcases B32.flush_cases true x with h | ⟨-, -, h⟩ <;> rw [h]
  · intro hsub
    have hsub := (B32.isSubnormal_iff x).2 hsub
    rw [B32.flush_true, if_pos hsub] at h
    rw [← h] at hsub
    exact absurd (B32.signedZero_mag x.isNeg) ((B32.isSubnormal_iff _).1 hsub).1
  · exact fun hzero => hzero.1 (B32.signedZero_mag x.isNeg)

theorem B32.flush_flush (ftz : Bool) (x : B32) : (x.flush ftz).flush ftz = x.flush ftz := by
  cases ftz with
  | false => exact B32.flush_false _
  | true => exact B32.flush_of_not_subnormal true (B32.flush_true_not_subnormal x)

/-! ### Quiet equality (R84) -/

theorem B32.quietEq_false_iff (p q : B32) :
    B32.quietEq false p q = true ↔ p.isNaN = false ∧ q.isNaN = false ∧ (p = q ∨ (p.mag = 0 ∧ q.mag = 0)) := by
  simp only [B32.quietEq, B32.flush_false, Bool.and_eq_true, Bool.not_eq_true', Bool.or_eq_true, beq_iff_eq, B32.isZero_iff,
    and_assoc]

theorem B32.quietEq_true (p q : B32) : B32.quietEq true p q = B32.quietEq false (p.flush true) (q.flush true) := by
  simp only [B32.quietEq, B32.flush_false]

/-- Settles O58: the patterns compared are equal or both zero, which for finite values is equality of the values. -/
theorem quietEqualityComparesValues : Obligations.QuietEqualityComparesValues := by
  refine ⟨fun p q => ?_, B32.quietEq_true, B32.flush_true⟩
  rw [B32.quietEq_false_iff, B32.value_eq_iff]
  constructor
  · rintro ⟨hp, hq, heq⟩
    rcases B32.class_cases p with ⟨hfin, -, -⟩ | ⟨-, hinf, -⟩ | ⟨-, -, hnan⟩
    · rcases heq with rfl | ⟨hp0, hq0⟩
      · exact .inl ⟨hfin, hfin, .inl rfl⟩
      · have hqfin : q.isFinite = true := (B32.isFinite_iff q).2 (hq0 ▸ by decide)
        exact .inl ⟨hfin, hqfin, .inr ⟨hp0, hq0⟩⟩
    · rcases heq with rfl | ⟨hp0, -⟩
      · exact .inr ⟨hinf, hinf, rfl⟩
      · exact absurd (hp0.symm.trans ((B32.isInf_iff p).1 hinf)) (by decide)
    · exact Bool.noConfusion (hp.symm.trans hnan)
  · rintro (⟨hp, hq, heq⟩ | ⟨hp, hq, heq⟩)
    · have hp := (B32.isFinite_iff p).1 hp
      have hq := (B32.isFinite_iff q).1 hq
      simp only [← Bool.not_eq_true, B32.isNaN_iff]
      exact ⟨by omega, by omega, heq⟩
    · have hp := (B32.isInf_iff p).1 hp
      have hq := (B32.isInf_iff q).1 hq
      simp only [← Bool.not_eq_true, B32.isNaN_iff]
      exact ⟨by omega, by omega, .inl (B32.ext_sign_mag heq (hp.trans hq.symm))⟩

theorem B32.quietEq_self (ftz : Bool) (x : B32) : B32.quietEq ftz x x = !x.isNaN := by
  simp [B32.quietEq]

/-! ### Immediates -/

/-- No subnormal is a whole number. -/
theorem B32.not_subnormal_of_integer {x : B32} {n : Nat} (h : x.units = n * 2 ^ 149) : x.isSubnormal = false := by
  rw [← Bool.not_eq_true, B32.isSubnormal_iff]
  rintro ⟨hne, hlt⟩
  rw [B32.units_eq, magUnits, if_pos hlt] at h
  omega

theorem immValue_not_subnormal (n : BitVec 7) : (immValue n).isSubnormal = false := by
  obtain ⟨-, -, hunits⟩ := immValue_fields n
  exact B32.not_subnormal_of_integer hunits

theorem isNaN_of_isFinite {x : B32} (h : x.isFinite = true) : x.isNaN = false := by
  have := (B32.isFinite_iff x).1 h
  rw [← Bool.not_eq_true, B32.isNaN_iff]
  omega

theorem isInf_of_isFinite {x : B32} (h : x.isFinite = true) : x.isInf = false := by
  have := (B32.isFinite_iff x).1 h
  rw [← Bool.not_eq_true, B32.isInf_iff]
  omega

/-- Immediates compare by index, whatever FTZ is. -/
theorem quietEq_immValue (ftz : Bool) (i j : BitVec 7) : B32.quietEq ftz (immValue i) (immValue j) = true ↔ i = j := by
  have hflush : B32.quietEq ftz (immValue i) (immValue j) = B32.quietEq false (immValue i) (immValue j) := by
    simp only [B32.quietEq, B32.flush_of_not_subnormal _ (immValue_not_subnormal _)]
  obtain ⟨hi, -, -⟩ := immValue_fields i
  obtain ⟨hj, -, -⟩ := immValue_fields j
  rw [hflush, B32.quietEq_false_iff, ← B32.value_eq_iff, immValue_value, immValue_value]
  constructor
  · rintro ⟨-, -, heq⟩
    apply BitVec.eq_of_toNat_eq
    omega
  · rintro rfl
    exact ⟨isNaN_of_isFinite hi, isNaN_of_isFinite hj, rfl⟩

/-- Settles O59: the lanes of two immediates are all alike, and a lane is quietly equal to itself unless it is a NaN. -/
theorem cmpCornerCases : Obligations.CmpCornerCases := by
  refine ⟨fun i j s => ⟨_, rfl, ?_⟩, fun r s => ⟨_, rfl, ?_⟩⟩
  · exact (Bool.eq_iff_iff.1 (allLanesEqual_broadcast _ _)).trans (quietEq_immValue Config.ftz i j)
  · refine (allLanesEqual_iff _ _).trans (forall_congr' fun i => ?_)
    rw [B32.quietEq_self, Bool.not_eq_true']
    rfl

end Sys2Proof
end

section
/-! The special cases of the default sum and product (42_arithmetic R78, R80, R81): NaN results, infinities, zeros, and FTZ. -/

namespace Sys2Proof

/-! ### The branches of the sum and of the product -/

/-- The sum of two finite operands, flushed before: rounded once, an exact 0 with the sign rule of roundTiesToEven. -/
def B32.finiteSum (ftz : Bool) (a b : B32) : B32 :=
  if a.value + b.value = 0 then B32.signedZero (a.isNeg && b.isNeg)
  else (B32.pack (decide (a.value + b.value < 0)) (B32.roundUnits (a.value + b.value).natAbs 1)).flush ftz

/-- The product of two finite operands, flushed before. -/
def B32.finiteProduct (ftz : Bool) (a b : B32) : B32 :=
  (B32.pack (a.isNeg != b.isNeg) (B32.roundUnits (a.units * b.units) (2 ^ 149))).flush ftz

section Branches

variable {x y : B32} (ftz : Bool) (nan : B32)

theorem B32.flush_of_isInf (h : x.isInf = true) : x.flush ftz = x := by
  refine B32.flush_of_not_subnormal ftz ?_
  have := (B32.isInf_iff x).1 h
  rw [← Bool.not_eq_true, B32.isSubnormal_iff, this]
  decide

theorem B32.addRne_of_nan (h : x.isNaN = true ∨ y.isNaN = true) : B32.addRne ftz nan x y = nan := by
  simp only [B32.addRne, B32.flush_isNaN, Bool.or_eq_true, if_pos h]

theorem B32.addRne_of_opposite_inf (hx : x.isInf = true) (hy : y.isInf = true) (hneg : x.isNeg ≠ y.isNeg) :
    B32.addRne ftz nan x y = nan := by
  simp [B32.addRne, hx, hy, hneg]

theorem B32.addRne_of_inf_left (hx : x.isInf = true) (hxn : x.isNaN = false) (hyn : y.isNaN = false)
    (hsame : y.isInf = false ∨ x.isNeg = y.isNeg) : B32.addRne ftz nan x y = x := by
  rcases hsame with h | h <;> simp [B32.addRne, hx, hxn, hyn, h, B32.flush_of_isInf ftz hx]

theorem B32.addRne_of_inf_right (hx : x.isInf = false) (hy : y.isInf = true) (hxn : x.isNaN = false)
    (hyn : y.isNaN = false) : B32.addRne ftz nan x y = y := by
  simp [B32.addRne, hx, hxn, hyn, hy, B32.flush_of_isInf ftz hy]

theorem B32.addRne_of_finite (hx : x.isFinite = true) (hy : y.isFinite = true) :
    B32.addRne ftz nan x y = B32.finiteSum ftz (x.flush ftz) (y.flush ftz) := by
  simp only [B32.addRne, B32.flush_isNaN, B32.flush_isInf, isNaN_of_isFinite hx, isNaN_of_isFinite hy, isInf_of_isFinite hx,
    isInf_of_isFinite hy, Bool.or_false, Bool.false_eq_true, if_false]
  rfl

theorem B32.mulRne_of_nan (h : x.isNaN = true ∨ y.isNaN = true) : B32.mulRne ftz nan x y = nan := by
  simp only [B32.mulRne, B32.flush_isNaN, Bool.or_eq_true, if_pos h]

theorem B32.mulRne_of_inf_zero (hx : x.isInf = true) (hy : (y.flush ftz).isZero = true) :
    B32.mulRne ftz nan x y = nan := by
  simp [B32.mulRne, hx, hy]

theorem B32.mulRne_of_inf_left (hx : x.isInf = true) (hxn : x.isNaN = false) (hyn : y.isNaN = false)
    (hy : (y.flush ftz).isZero = false) : B32.mulRne ftz nan x y = B32.pack (x.isNeg != y.isNeg) B32.infBits := by
  simp [B32.mulRne, hx, hxn, hyn, hy]

theorem B32.mulRne_of_zero_inf (hx : x.isInf = false) (hy : y.isInf = true) (hzero : (x.flush ftz).isZero = true) :
    B32.mulRne ftz nan x y = nan := by
  simp [B32.mulRne, hx, hy, hzero]

theorem B32.mulRne_of_inf_right (hx : x.isInf = false) (hy : y.isInf = true) (hxn : x.isNaN = false)
    (hyn : y.isNaN = false) (hzero : (x.flush ftz).isZero = false) :
    B32.mulRne ftz nan x y = B32.pack (x.isNeg != y.isNeg) B32.infBits := by
  simp [B32.mulRne, hx, hxn, hyn, hy, hzero]

theorem B32.mulRne_of_finite (hx : x.isFinite = true) (hy : y.isFinite = true) :
    B32.mulRne ftz nan x y = B32.finiteProduct ftz (x.flush ftz) (y.flush ftz) := by
  simp only [B32.mulRne, B32.flush_isNaN, B32.flush_isInf, isNaN_of_isFinite hx, isNaN_of_isFinite hy, isInf_of_isFinite hx,
    isInf_of_isFinite hy, Bool.or_false, Bool.false_eq_true, if_false]
  rfl

end Branches

/-! ### NaN results (R78) -/

theorem B32.pack_not_nan (neg : Bool) {m : Nat} (h : m ≤ B32.infBits) : (B32.pack neg m).isNaN = false := by
  rw [← Bool.not_eq_true, B32.isNaN_iff, B32.pack_mag neg (h.trans_lt (by decide))]
  omega

theorem B32.finiteSum_not_nan (ftz : Bool) (a b : B32) : (B32.finiteSum ftz a b).isNaN = false := by
  rw [B32.finiteSum]
  split
  · rw [B32.signedZero_eq_pack]
    exact B32.pack_not_nan _ (Nat.zero_le _)
  · rw [B32.flush_isNaN]
    exact B32.pack_not_nan _ (B32.roundUnits_le _ _)

theorem B32.finiteProduct_not_nan (ftz : Bool) (a b : B32) : (B32.finiteProduct ftz a b).isNaN = false := by
  rw [B32.finiteProduct, B32.flush_isNaN]
  exact B32.pack_not_nan _ (B32.roundUnits_le _ _)

/-- The grounds of a NaN sum. -/
def AddGivesNaN (x y : B32) : Prop :=
  x.isNaN = true ∨ y.isNaN = true ∨ (x.isInf = true ∧ y.isInf = true ∧ x.isNeg ≠ y.isNeg)

/-- Everything a sum can be: `nan` on those grounds, and without them an infinite operand or a finite sum. -/
theorem B32.addRne_cases (ftz : Bool) (nan x y : B32) :
    (AddGivesNaN x y ∧ B32.addRne ftz nan x y = nan) ∨
      (¬ AddGivesNaN x y ∧
        ((x.isInf = true ∧ B32.addRne ftz nan x y = x) ∨ (y.isInf = true ∧ B32.addRne ftz nan x y = y) ∨
          B32.addRne ftz nan x y = B32.finiteSum ftz (x.flush ftz) (y.flush ftz))) := by
  rcases B32.class_cases x with ⟨hxf, hxi, hxn⟩ | ⟨-, hxi, hxn⟩ | ⟨-, -, hxn⟩
  · rcases B32.class_cases y with ⟨hyf, hyi, hyn⟩ | ⟨-, hyi, hyn⟩ | ⟨-, -, hyn⟩
    · exact .inr ⟨by simp [AddGivesNaN, hxn, hyn, hxi], .inr (.inr (B32.addRne_of_finite ftz nan hxf hyf))⟩
    · exact .inr ⟨by simp [AddGivesNaN, hxn, hyn, hxi],
        .inr (.inl ⟨hyi, B32.addRne_of_inf_right ftz nan hxi hyi hxn hyn⟩)⟩
    · exact .inl ⟨.inr (.inl hyn), B32.addRne_of_nan ftz nan (.inr hyn)⟩
  · rcases B32.class_cases y with ⟨-, hyi, hyn⟩ | ⟨-, hyi, hyn⟩ | ⟨-, -, hyn⟩
    · exact .inr ⟨by simp [AddGivesNaN, hxn, hyn, hyi],
        .inl ⟨hxi, B32.addRne_of_inf_left ftz nan hxi hxn hyn (.inl hyi)⟩⟩
    · by_cases hneg : x.isNeg = y.isNeg
      · exact .inr ⟨by simp [AddGivesNaN, hxn, hyn, hneg],
          .inl ⟨hxi, B32.addRne_of_inf_left ftz nan hxi hxn hyn (.inr hneg)⟩⟩
      · exact .inl ⟨.inr (.inr ⟨hxi, hyi, hneg⟩), B32.addRne_of_opposite_inf ftz nan hxi hyi hneg⟩
    · exact .inl ⟨.inr (.inl hyn), B32.addRne_of_nan ftz nan (.inr hyn)⟩
  · exact .inl ⟨.inl hxn, B32.addRne_of_nan ftz nan (.inl hxn)⟩

theorem isNaN_of_isInf {x : B32} (h : x.isInf = true) : x.isNaN = false := by
  rw [← Bool.not_eq_true, B32.isNaN_iff, (B32.isInf_iff x).1 h]
  exact Nat.lt_irrefl _

/-- A sum is no NaN without those grounds. -/
theorem B32.addRne_not_nan (ftz : Bool) (nan : B32) {x y : B32} (h : ¬ AddGivesNaN x y) :
    (B32.addRne ftz nan x y).isNaN = false := by
  rcases B32.addRne_cases ftz nan x y with ⟨hgrounds, -⟩ | ⟨-, ⟨hinf, he⟩ | ⟨hinf, he⟩ | he⟩
  · exact absurd hgrounds h
  · rw [he]; exact isNaN_of_isInf hinf
  · rw [he]; exact isNaN_of_isInf hinf
  · rw [he]; exact B32.finiteSum_not_nan _ _ _

/-- Settles O52, by the grounds. -/
theorem addNaNExactly : Obligations.AddNaNExactly := by
  intro x y
  rcases B32.addRne_cases Config.ftz (Config.nanResult .add x y) x y with ⟨hgrounds, hnan⟩ | ⟨hnone, -⟩
  · refine ⟨⟨fun _ => hgrounds, fun _ => ?_⟩, fun _ => hnan⟩
    rw [faddDefault, hnan]
    exact Config.nanResult_isNaN _ _ _
  · have hnot := B32.addRne_not_nan Config.ftz (Config.nanResult .add x y) hnone
    exact ⟨⟨fun h => Bool.noConfusion (h.symm.trans hnot), fun h => absurd h hnone⟩,
      fun h => Bool.noConfusion (h.symm.trans hnot)⟩

/-- The grounds of a NaN product. -/
def MulGivesNaN (ftz : Bool) (x y : B32) : Prop :=
  x.isNaN = true ∨ y.isNaN = true ∨ (x.isInf = true ∧ (y.flush ftz).isZero = true) ∨
    (y.isInf = true ∧ (x.flush ftz).isZero = true)

theorem not_isZero_flush_of_isInf (ftz : Bool) {x : B32} (h : x.isInf = true) : (x.flush ftz).isZero = false := by
  rw [B32.flush_of_isInf ftz h, ← Bool.not_eq_true, B32.isZero_iff, (B32.isInf_iff x).1 h]
  decide

/-- Everything a product can be: `nan` on those grounds, and without them an infinity or a finite product. -/
theorem B32.mulRne_cases (ftz : Bool) (nan x y : B32) :
    (MulGivesNaN ftz x y ∧ B32.mulRne ftz nan x y = nan) ∨
      (¬ MulGivesNaN ftz x y ∧
        (B32.mulRne ftz nan x y = B32.pack (x.isNeg != y.isNeg) B32.infBits ∨
          B32.mulRne ftz nan x y = B32.finiteProduct ftz (x.flush ftz) (y.flush ftz))) := by
  rcases B32.class_cases x with ⟨hxf, hxi, hxn⟩ | ⟨-, hxi, hxn⟩ | ⟨-, -, hxn⟩
  · rcases B32.class_cases y with ⟨hyf, hyi, hyn⟩ | ⟨-, hyi, hyn⟩ | ⟨-, -, hyn⟩
    · exact .inr ⟨by simp [MulGivesNaN, hxn, hyn, hxi, hyi], .inr (B32.mulRne_of_finite ftz nan hxf hyf)⟩
    · cases hzero : (x.flush ftz).isZero with
      | true => exact .inl ⟨.inr (.inr (.inr ⟨hyi, hzero⟩)), B32.mulRne_of_zero_inf ftz nan hxi hyi hzero⟩
      | false =>
        exact .inr ⟨by simp [MulGivesNaN, hxn, hyn, hxi, hzero],
          .inl (B32.mulRne_of_inf_right ftz nan hxi hyi hxn hyn hzero)⟩
    · exact .inl ⟨.inr (.inl hyn), B32.mulRne_of_nan ftz nan (.inr hyn)⟩
  · cases hyn : y.isNaN with
    | true => exact .inl ⟨.inr (.inl hyn), B32.mulRne_of_nan ftz nan (.inr hyn)⟩
    | false =>
      cases hzero : (y.flush ftz).isZero with
      | true => exact .inl ⟨.inr (.inr (.inl ⟨hxi, hzero⟩)), B32.mulRne_of_inf_zero ftz nan hxi hzero⟩
      | false =>
        exact .inr ⟨by simp [MulGivesNaN, hxn, hyn, hzero, not_isZero_flush_of_isInf ftz hxi],
          .inl (B32.mulRne_of_inf_left ftz nan hxi hxn hyn hzero)⟩
  · exact .inl ⟨.inl hxn, B32.mulRne_of_nan ftz nan (.inl hxn)⟩

/-- A product is no NaN without those grounds. -/
theorem B32.mulRne_not_nan (ftz : Bool) (nan : B32) {x y : B32} (h : ¬ MulGivesNaN ftz x y) :
    (B32.mulRne ftz nan x y).isNaN = false := by
  rcases B32.mulRne_cases ftz nan x y with ⟨hgrounds, -⟩ | ⟨-, he | he⟩
  · exact absurd hgrounds h
  · rw [he]; exact B32.pack_not_nan _ (Nat.le_refl _)
  · rw [he]; exact B32.finiteProduct_not_nan _ _ _

/-- Settles O53, by the grounds. -/
theorem mulNaNExactly : Obligations.MulNaNExactly := by
  intro x y
  rcases B32.mulRne_cases Config.ftz (Config.nanResult .mul x y) x y with ⟨hgrounds, hnan⟩ | ⟨hnone, -⟩
  · refine ⟨⟨fun _ => hgrounds, fun _ => ?_⟩, fun _ => hnan⟩
    rw [fmulDefault, hnan]
    exact Config.nanResult_isNaN _ _ _
  · have hnot := B32.mulRne_not_nan Config.ftz (Config.nanResult .mul x y) hnone
    exact ⟨⟨fun h => Bool.noConfusion (h.symm.trans hnot), fun h => absurd h hnone⟩,
      fun h => Bool.noConfusion (h.symm.trans hnot)⟩

/-! ### FTZ and opposite operands -/

theorem B32.not_subnormal_of_nan {x : B32} (h : x.isNaN = true) : x.isSubnormal = false := by
  have := (B32.isNaN_iff x).1 h
  rw [← Bool.not_eq_true, B32.isSubnormal_iff]
  simp only [B32.infBits] at this
  omega

theorem B32.not_subnormal_of_mag {x : B32} (h : x.mag = 0 ∨ x.mag = B32.infBits) : x.isSubnormal = false := by
  rw [← Bool.not_eq_true, B32.isSubnormal_iff]
  simp only [B32.infBits] at h
  omega

theorem B32.finiteSum_not_subnormal (a b : B32) : (B32.finiteSum true a b).isSubnormal = false := by
  rw [B32.finiteSum]
  split
  · exact B32.not_subnormal_of_mag (.inl (B32.signedZero_mag _))
  · exact B32.flush_true_not_subnormal _

/-- Settles O57: each result of a sum or product is a NaN, an infinity, a zero or flushed; and the operands are flushed once. -/
theorem flushToZeroRemovesSubnormals : Obligations.FlushToZeroRemovesSubnormals := by
  refine fun nan x y hnan => ⟨?_, ?_, ?_, ?_⟩
  · rcases B32.addRne_cases true nan x y with ⟨-, he⟩ | ⟨-, ⟨hinf, he⟩ | ⟨hinf, he⟩ | he⟩ <;> rw [he]
    · exact B32.not_subnormal_of_nan hnan
    · exact B32.not_subnormal_of_mag (.inr ((B32.isInf_iff x).1 hinf))
    · exact B32.not_subnormal_of_mag (.inr ((B32.isInf_iff y).1 hinf))
    · exact B32.finiteSum_not_subnormal _ _
  · rcases B32.mulRne_cases true nan x y with ⟨-, he⟩ | ⟨-, he | he⟩ <;> rw [he]
    · exact B32.not_subnormal_of_nan hnan
    · exact B32.not_subnormal_of_mag (.inr (B32.pack_mag _ (by decide)))
    · exact B32.flush_true_not_subnormal _
  · simp only [B32.addRne, B32.flush_flush]
  · simp only [B32.mulRne, B32.flush_flush]

theorem B32.xor_sign_isNeg (x : B32) : (x ^^^ 0x80000000).isNeg = !x.isNeg := by
  rw [B32.isNeg, BitVec.getLsbD_xor]
  exact Bool.xor_true _

theorem B32.xor_sign_mag (x : B32) : (x ^^^ 0x80000000).mag = x.mag := by
  have hlow : (x ^^^ 0x80000000).setWidth 31 = x.setWidth 31 := by
    rw [BitVec.setWidth_xor]
    exact BitVec.xor_zero
  rw [B32.mag, B32.mag, ← BitVec.toNat_setWidth, ← BitVec.toNat_setWidth, hlow]

/-- Whether a pattern is flushed is a matter of its magnitude. -/
theorem B32.flush_mag_congr (ftz : Bool) {x y : B32} (h : x.mag = y.mag) : (x.flush ftz).mag = (y.flush ftz).mag := by
  have hsub : x.isSubnormal = y.isSubnormal := by
    rw [Bool.eq_iff_iff, B32.isSubnormal_iff, B32.isSubnormal_iff, h]
  rw [B32.flush, B32.flush, hsub]
  split
  · rw [B32.signedZero_mag, B32.signedZero_mag]
  · exact h

theorem B32.value_add_opposite {a b : B32} (hneg : b.isNeg = !a.isNeg) (hmag : b.mag = a.mag) : a.value + b.value = 0 := by
  rw [B32.value, B32.value, hneg, B32.units_eq, B32.units_eq, hmag]
  cases a.isNeg <;> simp

/-- Settles O55: the values cancel exactly, flushed or not, and one of the signs is positive. -/
theorem sumWithOppositeIsPositiveZero : Obligations.SumWithOppositeIsPositiveZero := by
  intro ftz nan x hx
  have hmag := B32.xor_sign_mag x
  have hy : (x ^^^ 0x80000000).isFinite = true := by
    rw [B32.isFinite_iff, hmag]
    exact (B32.isFinite_iff x).1 hx
  have hneg : ((x ^^^ 0x80000000).flush ftz).isNeg = !(x.flush ftz).isNeg := by
    rw [B32.flush_isNeg, B32.flush_isNeg, B32.xor_sign_isNeg]
  rw [B32.addRne_of_finite ftz nan hx hy, B32.finiteSum,
    if_pos (B32.value_add_opposite hneg (B32.flush_mag_congr ftz hmag)), hneg, Bool.and_not_self]
  rfl

end Sys2Proof
end

section
/-! Rounding (42_arithmetic R78): roundUnits gives the nearest magnitude, ties to even, among all magnitude bits, capped at infinity. -/

namespace Sys2Proof

open Claims

/-! ### Nearest of two neighbours -/

/-- B is a nearest point of f to n, and an even one where another point is as near. -/
structure NearestEven (f : Nat → Nat) (n B : Nat) : Prop where
  nearest : ∀ z, distance n (f B) ≤ distance n (f z)
  tie : ∀ z, distance n (f B) = distance n (f z) → z ≠ B → B % 2 = 0

/-- Seen from F, every point is F, F + 1, or further away on the side of one of them. -/
theorem neighbour_cases {f : Nat → Nat} (hf : StrictMono f) (F z : Nat) :
    (z < F ∧ f z < f F) ∨ (z = F ∧ f z = f F) ∨ (z = F + 1 ∧ f z = f (F + 1)) ∨ (F + 1 < z ∧ f (F + 1) < f z) := by
  rcases Nat.lt_trichotomy z F with hz | rfl | hz
  · exact .inl ⟨hz, hf hz⟩
  · exact .inr (.inl ⟨rfl, rfl⟩)
  · rcases Nat.lt_or_eq_of_le (Nat.succ_le_of_lt hz) with hz' | rfl
    · exact .inr (.inr (.inr ⟨hz', hf hz'⟩))
    · exact .inr (.inr (.inl ⟨rfl, rfl⟩))

/-- Between neighbours F and F + 1 of n, the nearer one, and of two equally near the even one. -/
theorem nearestEven_of_neighbours {f : Nat → Nat} (hf : StrictMono f) {n F B : Nat} (hlo : f F ≤ n) (hhi : n < f (F + 1))
    (hB : B = if f (F + 1) - n < n - f F ∨ (f (F + 1) - n = n - f F ∧ F % 2 = 1) then F + 1 else F) :
    NearestEven f n B := by
  rw [hB]
  split
  · next hup =>
    refine ⟨fun z => ?_, fun z => ?_⟩ <;> have hz := neighbour_cases hf F z <;> simp only [distance] <;> omega
  · next hdown =>
    refine ⟨fun z => ?_, fun z => ?_⟩ <;> have hz := neighbour_cases hf F z <;> simp only [distance] <;> omega

/-- Where c is odd, a nearest point is past c exactly from the midpoint of c and c + 1 on. -/
theorem NearestEven.le_iff {f : Nat → Nat} (hf : StrictMono f) {n B c : Nat} (h : NearestEven f n B) (hc : c % 2 = 1) :
    c + 1 ≤ B ↔ f c + f (c + 1) ≤ 2 * n := by
  have hstep : f c < f (c + 1) := hf (Nat.lt_add_one c)
  have hlow := h.nearest c
  have hhigh := h.nearest (c + 1)
  have htie := h.tie (c + 1)
  have hB := neighbour_cases hf c B
  simp only [distance] at hlow hhigh htie
  omega

/-! ### The rounding of R78 -/

/-- roundUnits before its cap: the rounded significand at the scale of the quotient. -/
def roundBits (n d : Nat) : Nat :=
  let k := (n / d).log2 - 23
  let quantum := d * 2 ^ k
  let m := n / quantum
  let r := n % quantum
  k * 2 ^ 23 + (if quantum < 2 * r ∨ (quantum = 2 * r ∧ m % 2 = 1) then m + 1 else m)

theorem roundUnits_eq_min (n d : Nat) : B32.roundUnits n d = min (roundBits n d) B32.infBits := rfl

/-- The significand is below 2^24, and at least 2^23 above the smallest scale. -/
theorem significand_bounds (n : Nat) {d k : Nat} (hk : k = (n / d).log2 - 23) :
    n / (d * 2 ^ k) < 2 ^ 24 ∧ (2 ^ 23 ≤ n / (d * 2 ^ k) ∨ k = 0) := by
  rw [← Nat.div_div_eq_div_mul]
  generalize hq : n / d = q at *
  have hlog : q < 2 ^ (q.log2 + 1) := Nat.lt_log2_self
  constructor
  · rw [Nat.div_lt_iff_lt_mul (Nat.two_pow_pos k), ← Nat.pow_add]
    exact hlog.trans_le (Nat.pow_le_pow_right (by decide) (by omega))
  · by_cases h0 : k = 0
    · exact .inr h0
    · have hne : q ≠ 0 := by
        rintro rfl
        exact h0 (by rw [hk, Nat.log2_zero])
      refine .inl ((Nat.le_div_iff_mul_le (Nat.two_pow_pos k)).2 ?_)
      rw [← Nat.pow_add]
      exact (Nat.pow_le_pow_right (by decide) (by omega)).trans (Nat.log2_self_le hne)

theorem mul_magUnits_strictMono {d : Nat} (hd : 0 < d) : StrictMono fun m => d * magUnits m :=
  magUnits_strictMono.const_mul hd

/-- Before the cap, the rounding is a nearest magnitude, ties to even. -/
theorem roundBits_nearestEven (n : Nat) {d : Nat} (hd : 0 < d) :
    NearestEven (fun m => d * magUnits m) n (roundBits n d) := by
  generalize hk : (n / d).log2 - 23 = k
  obtain ⟨hhi, hlo⟩ := significand_bounds n hk.symm
  have hdiv := Nat.div_add_mod n (d * 2 ^ k)
  have hmod := Nat.mod_lt n (Nat.mul_pos hd (Nat.two_pow_pos k))
  generalize hm : n / (d * 2 ^ k) = m at *
  generalize hr : n % (d * 2 ^ k) = r at *
  have hF : d * magUnits (k * 2 ^ 23 + m) = d * 2 ^ k * m := by
    rw [magUnits_significand hhi.le hlo]; ring
  have hF1 : d * magUnits (k * 2 ^ 23 + m + 1) = d * 2 ^ k * m + d * 2 ^ k := by
    rw [Nat.add_assoc, magUnits_significand (m := m + 1) hhi (by omega)]; ring
  refine nearestEven_of_neighbours (mul_magUnits_strictMono hd) (F := k * 2 ^ 23 + m) (by omega) (by omega) ?_
  simp only [roundBits, hk, hm, hr, hF, hF1]
  generalize d * 2 ^ k * m = floor at *
  generalize d * 2 ^ k = quantum at *
  split_ifs <;> omega

/-- The largest finite magnitude and infinity's, in units. -/
theorem magUnits_at_overflow : magUnits (B32.infBits - 1) + magUnits B32.infBits = 2 * ((2 ^ 25 - 1) * 2 ^ 252) := by
  decide

/-- The rounding overflows from the midpoint past the largest finite value on. -/
theorem roundUnits_eq_infBits_iff (n : Nat) {d : Nat} (hd : 0 < d) :
    B32.roundUnits n d = B32.infBits ↔ (2 ^ 25 - 1) * 2 ^ 252 * d ≤ n := by
  have hle := (roundBits_nearestEven n hd).le_iff (mul_magUnits_strictMono hd) (c := B32.infBits - 1) (by decide)
  have hsucc : B32.infBits - 1 + 1 = B32.infBits := rfl
  rw [hsucc, ← Nat.mul_add, magUnits_at_overflow] at hle
  rw [roundUnits_eq_min, min_eq_right_iff, hle]
  constructor <;> intro h <;> linarith

/-- Below infinity the rounding is a nearest magnitude, ties to even. -/
theorem roundUnits_nearestEven {n d : Nat} (hd : 0 < d) (hfin : B32.roundUnits n d < B32.infBits) :
    NearestEven (fun m => d * magUnits m) n (B32.roundUnits n d) := by
  have heq : B32.roundUnits n d = roundBits n d := by
    rw [roundUnits_eq_min] at hfin ⊢
    omega
  rw [heq]
  exact roundBits_nearestEven n hd

/-- The units of a finite pattern are rounded to its own magnitude bits. -/
theorem roundUnits_magUnits {m : Nat} (hm : m < B32.infBits) : B32.roundUnits (magUnits m) 1 = m := by
  have hmono : magUnits m ≤ magUnits (B32.infBits - 1) := magUnits_strictMono.monotone (by omega)
  have hlast : magUnits (B32.infBits - 1) < (2 ^ 25 - 1) * 2 ^ 252 := by decide
  have hnot := mt (roundUnits_eq_infBits_iff (magUnits m) Nat.one_pos).1 (by omega)
  have hfin := Nat.lt_of_le_of_ne (B32.roundUnits_le (magUnits m) 1) hnot
  have hnear := (roundUnits_nearestEven Nat.one_pos hfin).nearest m
  simp only [distance, Nat.one_mul] at hnear
  exact magUnits_strictMono.injective (by omega)

/-- A common factor does not matter. -/
theorem roundUnits_mul_right (n d : Nat) {c : Nat} (hc : 0 < c) : B32.roundUnits (n * c) (d * c) = B32.roundUnits n d := by
  have hquantum : ∀ k, d * c * 2 ^ k = d * 2 ^ k * c := fun k => by ring
  have hlt : ∀ a b, a * c < 2 * (b * c) ↔ a < 2 * b := fun a b => by
    rw [← Nat.mul_assoc, Nat.mul_lt_mul_right hc]
  have heq : ∀ a b, a * c = 2 * (b * c) ↔ a = 2 * b := fun a b => by
    rw [← Nat.mul_assoc, Nat.mul_left_inj hc.ne']
  simp only [B32.roundUnits, Nat.mul_div_mul_right _ _ hc, hquantum, Nat.mul_mod_mul_right, hlt, heq]

/-! ### The default operations -/

theorem B32.lastBit_of_even {x : B32} (h : x.mag % 2 = 0) : x.getLsbD 0 = false := by
  have hmod : ¬ x.toNat % 2 = 1 := by
    rw [B32.mag] at h
    omega
  rw [← BitVec.testBit_toNat, Nat.testBit_zero, decide_eq_false hmod]

/-- A pattern of rounded magnitude is the rounding of R78. -/
theorem roundedToEven_pack (neg : Bool) (n : Nat) {d : Nat} (hd : 0 < d) :
    RoundedToEven neg n d (B32.pack neg (B32.roundUnits n d)) := by
  have hle := B32.roundUnits_le n d
  have hlt : B32.roundUnits n d < 2 ^ 31 := hle.trans_lt (by decide)
  have hmag := B32.pack_mag neg hlt
  have hnear (hfin : (B32.pack neg (B32.roundUnits n d)).isFinite = true) :=
    roundUnits_nearestEven hd (hmag ▸ (B32.isFinite_iff _).1 hfin)
  refine ⟨B32.pack_isNeg neg hlt, B32.pack_not_nan neg hle, ?_, fun hfin z _ => ?_, fun hfin z _ htie hne => ?_⟩
  · rw [B32.isInf_iff, hmag, roundUnits_eq_infBits_iff n hd]
  · rw [B32.units_eq, B32.units_eq, hmag]
    exact (hnear hfin).nearest z.mag
  · rw [B32.units_eq, B32.units_eq, hmag] at htie
    rw [B32.units_eq, B32.units_eq, hmag] at hne
    refine B32.lastBit_of_even (hmag.symm ▸ ?_)
    exact (hnear hfin).tie z.mag htie fun h => hne (h ▸ rfl)

theorem B32.flush_signedZero (ftz neg : Bool) : (B32.signedZero neg).flush ftz = B32.signedZero neg :=
  B32.flush_of_not_subnormal ftz (B32.not_subnormal_of_mag (.inl (B32.signedZero_mag neg)))

theorem B32.flush_pack_inf (ftz neg : Bool) : (B32.pack neg B32.infBits).flush ftz = B32.pack neg B32.infBits :=
  B32.flush_of_not_subnormal ftz (B32.not_subnormal_of_mag (.inr (B32.pack_mag neg (by decide))))

/-- FTZ acts before and after the sum that does not flush: its other results are not subnormal. -/
theorem addRne_true_eq {nan : B32} (x y : B32) (hnan : nan.isNaN = true) :
    B32.addRne true nan x y = (B32.addRne false nan (x.flush true) (y.flush true)).flush true := by
  have hkept := B32.flush_of_not_subnormal true (B32.not_subnormal_of_nan hnan)
  simp only [B32.addRne, B32.flush_false, apply_ite (B32.flush true), hkept, B32.flush_flush, B32.flush_signedZero]

theorem mulRne_true_eq {nan : B32} (x y : B32) (hnan : nan.isNaN = true) :
    B32.mulRne true nan x y = (B32.mulRne false nan (x.flush true) (y.flush true)).flush true := by
  have hkept := B32.flush_of_not_subnormal true (B32.not_subnormal_of_nan hnan)
  simp only [B32.mulRne, B32.flush_false, apply_ite (B32.flush true), hkept, B32.flush_pack_inf]

theorem getD_eq_or {α : Type} (choice : Option α) (default : α) :
    (choice = none ∧ choice.getD default = default) ∨ choice = some (choice.getD default) := by
  cases choice with
  | none => exact .inl ⟨rfl, rfl⟩
  | some f => exact .inr rfl

/-- Settles O51: a finite result is a pattern of rounded magnitude, and the choice of R5 is read off its option. -/
theorem roundingIsNearestTiesToEven : Obligations.RoundingIsNearestTiesToEven := by
  refine ⟨fun n d hd => ⟨roundUnits_eq_infBits_iff n hd, B32.roundUnits_le n d, fun hfin m hm => ?_⟩,
    fun nan x y hx hy hne => ?_, fun nan x y hx hy hzero => ?_, fun nan x y hx hy => ?_,
    fun neg digits up down => roundedToEven_pack neg _ (Nat.pow_pos (by decide)),
    fun nan x y hnan => ⟨addRne_true_eq x y hnan, mulRne_true_eq x y hnan⟩, fun x y => ⟨rfl, rfl⟩,
    getD_eq_or Config.faddChoice faddDefault, getD_eq_or Config.fmulChoice fmulDefault⟩
  · have hlt : B32.roundUnits n d < 2 ^ 31 := hfin.trans (by decide)
    rw [unitsOfBits_eq hlt, unitsOfBits_eq (hm.trans (by decide))]
    have hnear := roundUnits_nearestEven hd hfin
    exact ⟨hnear.nearest m, hnear.tie m⟩
  · rw [B32.addRne_of_finite false nan hx hy, B32.flush_false, B32.flush_false, B32.finiteSum, if_neg hne, B32.flush_false]
    exact roundedToEven_pack _ _ Nat.one_pos
  · rw [B32.addRne_of_finite false nan hx hy, B32.flush_false, B32.flush_false, B32.finiteSum, if_pos hzero]
    rfl
  · rw [B32.mulRne_of_finite false nan hx hy, B32.flush_false, B32.flush_false, B32.finiteProduct, B32.flush_false]
    exact roundedToEven_pack _ _ (Nat.two_pow_pos 149)

/-! ### Exact results -/

/-- One, as the spec's immediate. -/
theorem immValue_one_fields : (immValue 1).isFinite = true ∧ (immValue 1).isNeg = false ∧ (immValue 1).units = 2 ^ 149 :=
  immValue_fields 1

theorem not_isZero_immValue_one : (immValue 1).isZero = false := by decide

/-- Settles O54: a finite magnitude is rounded to itself, and an infinity keeps its sign. -/
theorem mulByOneIsIdentity : Obligations.MulByOneIsIdentity := by
  intro nan x hx
  obtain ⟨hfin, hneg, hunits⟩ := immValue_one_fields
  rcases B32.class_cases x with ⟨hxf, -, -⟩ | ⟨-, hxi, -⟩ | ⟨-, -, hxn⟩
  · have hround := roundUnits_mul_right x.units 1 (Nat.two_pow_pos 149)
    rw [Nat.one_mul] at hround
    rw [B32.mulRne_of_finite false nan hxf hfin, B32.flush_false, B32.flush_false, B32.finiteProduct, B32.flush_false, hneg,
      hunits, hround, B32.units_eq, roundUnits_magUnits ((B32.isFinite_iff x).1 hxf), Bool.bne_false]
    exact B32.pack_self x
  · rw [B32.mulRne_of_inf_left false nan hxi hx (isNaN_of_isFinite hfin) not_isZero_immValue_one, hneg, Bool.bne_false,
      ← (B32.isInf_iff x).1 hxi]
    exact B32.pack_self x
  · exact Bool.noConfusion (hx.symm.trans hxn)

/-- A rounded integer below 2^24 is exact, and no subnormal for FTZ to flush. -/
theorem flush_pack_integer (ftz : Bool) {n : Nat} (hn : n < 2 ^ 24) :
    ((B32.pack false (B32.roundUnits (n * 2 ^ 149) 1)).flush ftz).isFinite = true ∧
      ((B32.pack false (B32.roundUnits (n * 2 ^ 149) 1)).flush ftz).value = n * 2 ^ 149 := by
  obtain ⟨hfin, hneg, hunits⟩ := B32.pack_roundUnits_integer false hn
  rw [B32.flush_of_not_subnormal ftz (B32.not_subnormal_of_integer hunits), B32.value, hneg,
    if_neg Bool.false_ne_true, hunits]
  exact ⟨hfin, by push_cast; rfl⟩

theorem finiteSum_immValue (ftz : Bool) (i j : BitVec 7) :
    (B32.finiteSum ftz (immValue i) (immValue j)).isFinite = true ∧
      (B32.finiteSum ftz (immValue i) (immValue j)).value = (i.toNat + j.toNat) * 2 ^ 149 := by
  have hsum : (immValue i).value + (immValue j).value = ((i.toNat + j.toNat) * 2 ^ 149 : Nat) := by
    rw [immValue_value, immValue_value]
    push_cast
    ring
  rw [B32.finiteSum, hsum]
  split
  · next hzero =>
    obtain ⟨-, hneg, -⟩ := immValue_fields i
    rw [hneg, Bool.false_and]
    have hvalue : (B32.signedZero false).value = 0 := by decide
    rw [hvalue]
    exact ⟨rfl, by exact_mod_cast hzero.symm⟩
  · have hnot : decide (((i.toNat + j.toNat) * 2 ^ 149 : Nat) < (0 : Int)) = false :=
      decide_eq_false (Int.not_lt.2 (Int.natCast_nonneg _))
    rw [hnot, Int.natAbs_natCast]
    have hi := i.isLt
    have hj := j.isLt
    exact flush_pack_integer ftz (by omega)

theorem finiteProduct_immValue (ftz : Bool) (i j : BitVec 7) :
    (B32.finiteProduct ftz (immValue i) (immValue j)).isFinite = true ∧
      (B32.finiteProduct ftz (immValue i) (immValue j)).value = (i.toNat * j.toNat) * 2 ^ 149 := by
  obtain ⟨-, hni, hui⟩ := immValue_fields i
  obtain ⟨-, hnj, huj⟩ := immValue_fields j
  have hlt : i.toNat * j.toNat < 2 ^ 24 :=
    (Nat.mul_lt_mul'' i.isLt j.isLt).trans_le (by decide)
  have hunits : (immValue i).units * (immValue j).units = i.toNat * j.toNat * 2 ^ 149 * 2 ^ 149 := by
    rw [hui, huj]
    ring
  have hround := roundUnits_mul_right (i.toNat * j.toNat * 2 ^ 149) 1 (Nat.two_pow_pos 149)
  rw [Nat.one_mul] at hround
  rw [B32.finiteProduct, hni, hnj, hunits, hround]
  exact_mod_cast flush_pack_integer ftz hlt

/-- Settles O56: the exact sum and product are integers below 2^24, whatever FTZ is. -/
theorem immediateArithmeticIsExact : Obligations.ImmediateArithmeticIsExact := by
  intro i j
  obtain ⟨hi, -, -⟩ := immValue_fields i
  obtain ⟨hj, -, -⟩ := immValue_fields j
  have hflush : ∀ n : BitVec 7, (immValue n).flush Config.ftz = immValue n := fun n =>
    B32.flush_of_not_subnormal _ (immValue_not_subnormal n)
  rw [faddDefault, fmulDefault, B32.addRne_of_finite _ _ hi hj, B32.mulRne_of_finite _ _ hi hj, hflush, hflush]
  obtain ⟨hsumFin, hsum⟩ := finiteSum_immValue Config.ftz i j
  obtain ⟨hprodFin, hprod⟩ := finiteProduct_immValue Config.ftz i j
  exact ⟨hsumFin, hsum, hprodFin, hprod⟩

end Sys2Proof
end

section
/-! The assembler (30_encoding R52 to R59): what it has built stays within its limits and bounds, line by line. -/

namespace Sys2Proof.Machine

/-! ### Bounds only grow -/

theorem arenaInBounds_mono {b b' : Bounds} {i : Instr} (hle : b.arena ≤ b'.arena) (h : i.arenaInBounds b = true) :
    i.arenaInBounds b' = true := by
  cases i with
  | load rd space addr =>
    cases space with
    | arena => exact decide_eq_true ((of_decide_eq_true h).trans_le hle)
    | literal => rfl
  | store rs addr => exact decide_eq_true ((of_decide_eq_true h).trans_le hle)
  | noop | endOp | move | cmp | bne | jmp | add | mul | shift | interp | svf | test1 | test2 | move1 | load1 => rfl

theorem literalInBounds_mono {b b' : Bounds} {i : Instr} (hle : b.literals ≤ b'.literals)
    (h : i.literalInBounds b = true) : i.literalInBounds b' = true := by
  cases i with
  | load rd space addr =>
    cases space with
    | arena => rfl
    | literal => exact decide_eq_true ((of_decide_eq_true h).trans_le hle)
  | noop | endOp | move | store | cmp | bne | jmp | add | mul | shift | interp | svf | test1 | test2 | move1 | load1 => rfl

/-- Instruction i names arena addresses below a and literal addresses below l. -/
def AddressesBelow (a l : Nat) (i : Instr) : Prop :=
  i.arenaInBounds ⟨a, l, 0⟩ = true ∧ i.literalInBounds ⟨a, l, 0⟩ = true

theorem addressesBelow_mono {a a' l l' : Nat} {i : Instr} (h : AddressesBelow a l i) (ha : a ≤ a') (hl : l ≤ l') :
    AddressesBelow a' l' i :=
  ⟨arenaInBounds_mono ha h.1, literalInBounds_mono hl h.2⟩

theorem addressesBelow_loadArena (rd : RegIdx) {addr : Addr} {a : Nat} (l : Nat) (h : addr.toNat < a) :
    AddressesBelow a l (.load rd .arena addr) :=
  ⟨decide_eq_true h, rfl⟩

theorem addressesBelow_loadLiteral (rd : RegIdx) {addr : Addr} (a : Nat) {l : Nat} (h : addr.toNat < l) :
    AddressesBelow a l (.load rd .literal addr) :=
  ⟨rfl, decide_eq_true h⟩

theorem addressesBelow_store (rs : RegIdx) {addr : Addr} {a : Nat} (l : Nat) (h : addr.toNat < a) :
    AddressesBelow a l (.store rs addr) :=
  ⟨decide_eq_true h, rfl⟩

/-! ### The assembler's invariant -/

/-- What the assembler has built is within R58's limits, and each instruction names noted addresses alone (R54, R59). -/
structure AsmState.Sound (st : AsmState) : Prop where
  items : ∀ i, Item.done i ∈ st.revItems → AddressesBelow st.arenaTop st.lit.length i
  count : st.revItems.length ≤ 16384
  pool : st.lit.length ≤ 16384
  arena : st.arenaTop ≤ 16384

theorem sound_initial : AsmState.initial.Sound where
  items := nofun
  count := Nat.zero_le _
  pool := Nat.zero_le _
  arena := Nat.zero_le _

theorem bind_eq_ok_iff {ε α β : Type} {x : Except ε α} {f : α → Except ε β} {r : β} :
    (x >>= f) = .ok r ↔ ∃ a, x = .ok a ∧ f a = .ok r := by
  cases x with
  | error e => exact ⟨nofun, fun ⟨_, h, _⟩ => nomatch h⟩
  | ok a => exact ⟨fun h => ⟨a, rfl, h⟩, fun ⟨_, h, hf⟩ => Except.ok.inj h ▸ hf⟩

section Lines

variable {st st' : AsmState}

theorem sound_emit {item : Item} (hs : st.Sound)
    (hitem : ∀ i, item = .done i → AddressesBelow st.arenaTop st.lit.length i)
    (h : emit item st = .ok st') : st'.Sound := by
  rw [emit] at h
  split at h
  · exact nomatch h
  · next hroom =>
    obtain rfl := Except.ok.inj h
    refine ⟨fun i hi => ?_, Nat.lt_of_not_le hroom, hs.pool, hs.arena⟩
    rcases List.mem_cons.1 hi with hi | hi
    · exact hitem i hi.symm
    · exact hs.items i hi

/-- An instruction without an address is emitted in any state. -/
theorem sound_emit_done {i : Instr} (hs : st.Sound) (hi : AddressesBelow st.arenaTop st.lit.length i)
    (h : emit (.done i) st = .ok st') : st'.Sound :=
  sound_emit hs (fun _ hj => Item.done.inj hj ▸ hi) h

theorem sound_noteArena (hs : st.Sound) (a : Addr) : (noteArena a st).Sound where
  items i hi := addressesBelow_mono (hs.items i hi) (Nat.le_max_left _ _) (Nat.le_refl _)
  count := hs.count
  pool := hs.pool
  arena := Nat.max_le.2 ⟨hs.arena, a.isLt⟩

theorem sound_addLiteral (hs : st.Sound) (x : B32) (hroom : st.lit.length < 16384) :
    AsmState.Sound { st with lit := st.lit ++ [x] } where
  items i hi := addressesBelow_mono (hs.items i hi) (Nat.le_refl _) (by simp)
  count := hs.count
  pool := by simpa using hroom
  arena := hs.arena

theorem lt_arenaTop_noteArena (a : Addr) (st : AsmState) : a.toNat < (noteArena a st).arenaTop :=
  Nat.le_max_right _ _

theorem asmLoad_memory (rd : RegIdx) (hi lo : BitVec 7) (st : AsmState) :
    asmLoad rd (.memory hi lo) st =
      emit (.done (.load rd .arena (packAddress hi lo))) (noteArena (packAddress hi lo) st) := rfl

theorem asmLoad_literal (rd : RegIdx) (x : B32) (st : AsmState) :
    asmLoad rd (.literal x) st =
      if 16384 ≤ st.lit.length then .error .literalPoolTooLong
      else emit (.done (.load rd .literal (BitVec.ofNat 14 st.lit.length))) { st with lit := st.lit ++ [x] } := rfl

theorem sound_asmLoad {rd : RegIdx} {t : Token} (hs : st.Sound) (h : asmLoad rd t st = .ok st') : st'.Sound := by
  cases t with
  | memory hi lo =>
    rw [asmLoad_memory] at h
    exact sound_emit_done (sound_noteArena hs _) (addressesBelow_loadArena rd _ (lt_arenaTop_noteArena _ st)) h
  | literal x =>
    rw [asmLoad_literal] at h
    split at h
    · exact nomatch h
    · next hroom =>
      have hlt := Nat.lt_of_not_le hroom
      have hindex : (BitVec.ofNat 14 st.lit.length).toNat < (st.lit ++ [x]).length := by
        rw [BitVec.toNat_ofNat, Nat.mod_eq_of_lt hlt, List.length_append]
        exact Nat.lt_add_one _
      exact sound_emit_done (sound_addLiteral hs x hlt) (addressesBelow_loadLiteral rd st.arenaTop hindex) h
  | register | hash | label | malformed => exact nomatch h

theorem asmStore_memory (rs : RegIdx) (hi lo : BitVec 7) (st : AsmState) :
    asmStore rs (.memory hi lo) st =
      emit (.done (.store rs (packAddress hi lo))) (noteArena (packAddress hi lo) st) := rfl

theorem sound_asmStore {rs : RegIdx} {t : Token} (hs : st.Sound) (h : asmStore rs t st = .ok st') : st'.Sound := by
  cases t with
  | memory hi lo =>
    rw [asmStore_memory] at h
    exact sound_emit_done (sound_noteArena hs _) (addressesBelow_store rs _ (lt_arenaTop_noteArena _ st)) h
  | register | hash | literal | label | malformed => exact nomatch h

theorem addressesBelow_branchInstr (a l : Nat) (isBne : Bool) (target : Addr) :
    AddressesBelow a l (branchInstr isBne target) := by
  cases isBne <;> exact ⟨rfl, rfl⟩

theorem asmBranch_hash (line : Nat) (isBne : Bool) (n : Nat) (st : AsmState) :
    asmBranch line isBne (.hash n) st =
      if n < 16384 then emit (.done (branchInstr isBne (BitVec.ofNat 14 n))) st else .error .outOfRange := rfl

theorem asmBranch_label (line : Nat) (isBne : Bool) (name : List Char) (st : AsmState) :
    asmBranch line isBne (.label name) st = emit (.branch line isBne name) st := rfl

theorem sound_asmBranch {line : Nat} {isBne : Bool} {t : Token} (hs : st.Sound)
    (h : asmBranch line isBne t st = .ok st') : st'.Sound := by
  cases t with
  | hash n =>
    rw [asmBranch_hash] at h
    split at h
    · exact sound_emit_done hs (addressesBelow_branchInstr _ _ _ _) h
    · exact nomatch h
  | label name =>
    rw [asmBranch_label] at h
    exact sound_emit hs (fun _ hitem => Item.noConfusion hitem) h
  | register | memory | literal | malformed => exact nomatch h

theorem sound_asmInstr {line : Nat} {op : AsmOp} {operands : List Token} (hs : st.Sound)
    (h : asmInstr line op operands st = .ok st') : st'.Sound := by
  rw [asmInstr.eq_def] at h
  split at h
  · exact sound_emit_done hs ⟨rfl, rfl⟩ h
  · exact sound_emit_done hs ⟨rfl, rfl⟩ h
  · simp only [bind_eq_ok_iff] at h
    obtain ⟨rd, -, a, -, h⟩ := h
    exact sound_emit_done hs ⟨rfl, rfl⟩ h
  · simp only [bind_eq_ok_iff] at h
    obtain ⟨rd, -, h⟩ := h
    exact sound_asmLoad hs h
  · simp only [bind_eq_ok_iff] at h
    obtain ⟨rs, -, h⟩ := h
    exact sound_asmStore hs h
  · simp only [bind_eq_ok_iff] at h
    obtain ⟨a, -, b, -, h⟩ := h
    exact sound_emit_done hs ⟨rfl, rfl⟩ h
  · exact sound_asmBranch hs h
  · exact sound_asmBranch hs h
  · simp only [bind_eq_ok_iff] at h
    obtain ⟨rd, -, a, -, b, -, h⟩ := h
    exact sound_emit_done hs ⟨rfl, rfl⟩ h
  · simp only [bind_eq_ok_iff] at h
    obtain ⟨rd, -, a, -, b, -, h⟩ := h
    exact sound_emit_done hs ⟨rfl, rfl⟩ h
  · exact nomatch h

theorem sound_asmStatement {line : Nat} {tokens : List (List Char)} (hs : st.Sound)
    (h : asmStatement line tokens st = .ok st') : st'.Sound := by
  rw [asmStatement.eq_def] at h
  split at h
  · exact Except.ok.inj h ▸ hs
  · split at h
    · exact Except.ok.inj h ▸ hs
    · exact sound_asmInstr hs h

theorem sound_defineLabel {name : List Char} (hs : st.Sound) (h : defineLabel name st = .ok st') : st'.Sound := by
  rw [defineLabel] at h
  split at h
  · exact nomatch h
  · obtain rfl := Except.ok.inj h
    exact { hs with }

theorem sound_asmLine {line : Nat} {text : List Char} (hs : st.Sound) (h : asmLine line text st = .ok st') : st'.Sound := by
  rw [asmLine] at h
  split at h
  · exact sound_asmStatement hs h
  · obtain ⟨st₁, hlabel, h⟩ := bind_eq_ok_iff.1 h
    exact sound_asmStatement (sound_defineLabel hs hlabel) h

end Lines

theorem sound_asmLines {n : Nat} {lines : List (List Char)} {st st' : AsmState} (hs : st.Sound)
    (h : asmLines n lines st = .ok st') : st'.Sound := by
  induction lines generalizing n st with
  | nil => exact Except.ok.inj h ▸ hs
  | cons l ls ih =>
    rw [asmLines] at h
    split at h
    · exact nomatch h
    · next st₁ hline => exact ih (sound_asmLine hs hline) h

/-! ### Resolution -/

/-- An item resolves to the encoding of its instruction, or of a branch. -/
theorem resolveItem_eq_ok {labels : List (List Char × Nat)} {item : Item} {b : Insn} (h : resolveItem labels item = .ok b) :
    ∃ i, b = encode i ∧ (item = .done i ∨ ∃ isBne target, i = branchInstr isBne target) := by
  cases item with
  | done i => exact ⟨i, (Except.ok.inj h).symm, .inl rfl⟩
  | branch line isBne name =>
    rw [resolveItem] at h
    split at h
    · exact nomatch h
    · split at h
      · exact ⟨_, (Except.ok.inj h).symm, .inr ⟨isBne, _, rfl⟩⟩
      · exact nomatch h

theorem resolveItems_eq_ok {labels : List (List Char × Nat)} {items : List Item} {bs : List Insn}
    (h : resolveItems labels items = .ok bs) :
    bs.length = items.length ∧
      ∀ b ∈ bs, ∃ i, b = encode i ∧ (Item.done i ∈ items ∨ ∃ isBne target, i = branchInstr isBne target) := by
  induction items generalizing bs with
  | nil =>
    obtain rfl := Except.ok.inj h
    exact ⟨rfl, nofun⟩
  | cons item items ih =>
    rw [resolveItems, bind_eq_ok_iff] at h
    obtain ⟨b, hb, h⟩ := h
    obtain ⟨bs, hbs, h⟩ := bind_eq_ok_iff.1 h
    obtain rfl := Except.ok.inj h
    obtain ⟨hlen, hmem⟩ := ih hbs
    refine ⟨congrArg Nat.succ hlen, fun c hc => ?_⟩
    rcases List.mem_cons.1 hc with rfl | hc
    · obtain ⟨i, hi, hsource⟩ := resolveItem_eq_ok hb
      exact ⟨i, hi, hsource.imp_left fun hitem => List.mem_cons.2 (.inl hitem.symm)⟩
    · obtain ⟨i, hi, hsource⟩ := hmem c hc
      exact ⟨i, hi, hsource.imp_left fun hitem => List.mem_cons.2 (.inr hitem)⟩

/-- A program that the assembler returns is the resolution of what its lines built. -/
theorem assemble_eq_program {text : List Char} {p : Program} {dropped : List Nat} (h : assemble text = .program p dropped) :
    ∃ st insns, asmLines 1 (splitLines text) AsmState.initial = .ok st ∧
      resolveItems st.labels st.revItems.reverse = .ok insns ∧ p = ⟨insns, st.lit, st.arenaTop, 0⟩ := by
  cases hlines : asmLines 1 (splitLines text) AsmState.initial with
  | error e =>
    simp only [assemble, hlines] at h
    exact nomatch h
  | ok st =>
    cases hitems : resolveItems st.labels st.revItems.reverse with
    | error e =>
      simp only [assemble, hlines, hitems] at h
      exact nomatch h
    | ok insns =>
      simp only [assemble, hlines, hitems] at h
      exact ⟨st, insns, rfl, hitems, (AsmResult.program.inj h).1.symm⟩

/-- Settles O60: every line keeps the assembler's invariant, and resolution adds branches alone. -/
theorem assembledProgramsAreWellFormed : Obligations.AssembledProgramsAreWellFormed := by
  intro text p dropped h
  obtain ⟨st, insns, hlines, hitems, rfl⟩ := assemble_eq_program h
  have hsound : st.Sound := sound_asmLines sound_initial hlines
  obtain ⟨hlen, hmem⟩ := resolveItems_eq_ok hitems
  refine ⟨fun b hb => ?_, ?_, hsound.pool, hsound.arena, rfl⟩
  · obtain ⟨i, rfl, hsource⟩ := hmem b hb
    have hbelow : AddressesBelow st.arenaTop st.lit.length i := by
      rcases hsource with hitem | ⟨isBne, target, rfl⟩
      · exact hsound.items i (List.mem_reverse.1 hitem)
      · exact addressesBelow_branchInstr _ _ _ _
    exact ⟨i, decodeInvertsEncode i, rfl, arenaInBounds_mono (Nat.le_refl _) hbelow.1,
      literalInBounds_mono (Nat.le_refl _) hbelow.2⟩
  · rw [hlen, List.length_reverse]
    exact hsound.count

end Sys2Proof.Machine
end
